-- ==== Sys2Proof/Word.lean ====
section
/-! DEFINITION. The plain data of the block's ports: bytes, payloads, frames, line levels and the
answers of the diagnostic lines (spec/00_scope.md R7, R9, R10; spec/10_state.md R27 to R31). -/

namespace Sys2Proof

/-- A byte, bit 7 most significant (R9). -/
abbrev Byte := BitVec 8

/-- The 32-bit value a chip register holds (R7, `DATA_BITS = 32`). -/
abbrev Word := BitVec 32

/-- A 7-bit register address (R7, `ADDR_BITS = 7`; R50). -/
abbrev Addr := BitVec 7

/-- The level of a driven line (R11). -/
inductive Level where
  | low
  | high
deriving DecidableEq, Repr, Inhabited

/-- The other level (R204: "the release level is the other one"). -/
def Level.other : Level → Level
  | .low => .high
  | .high => .low

/-- Four payload bytes `[p0, p1, p2, p3]` (R7, `PAYLOAD_LEN = 4`; R21 `wdata`). -/
structure Payload where
  p0 : Byte
  p1 : Byte
  p2 : Byte
  p3 : Byte
deriving DecidableEq, Repr, Inhabited

/-- The all-zero payload a read command sends (R87). -/
def Payload.zero : Payload := ⟨0#8, 0#8, 0#8, 0#8⟩

/-- A frame `F[0] .. F[4]` of exactly five bytes (R10, R80). -/
structure Frame where
  b0 : Byte
  b1 : Byte
  b2 : Byte
  b3 : Byte
  b4 : Byte
deriving DecidableEq, Repr, Inhabited

/-- Bytes 1 to 4 of a frame, in buffer order (R15, R88). -/
def Frame.payload (f : Frame) : Payload := ⟨f.b1, f.b2, f.b3, f.b4⟩

/-- The frame with byte 0 `c` and bytes 1 to 4 `p` (R111: `[c, p0, p1, p2, p3]`). -/
def Frame.ofParts (c : Byte) (p : Payload) : Frame := ⟨c, p.p0, p.p1, p.p2, p.p3⟩

/-- The two diagnostic inputs (R29). -/
inductive DiagLine where
  | diag0
  | diag1
deriving DecidableEq, Repr, Inhabited

/-- What the line environment answers to one sample: `Ok(b)`, `b` true when the line is High, or
`IoFail` (R11, R29). -/
inductive DiagAnswer where
  | ok (high : Bool)
  | ioFail
deriving DecidableEq, Repr, Inhabited

end Sys2Proof
end

