-- ==== Sys2Proof/Config.lean ====
section
/-! DEFINITION. What the spec leaves to the implementation: the three open parameters of
spec/00_scope.md R8 (`REGS`, `BusErrorT`, `EN_ASSERT_LEVEL`), the shape of the status-bit map that
spec/93_implementation_defined.md U4 makes a parameter, and the free values of U7, U8 and R29. -/

namespace Sys2Proof

/-- The parameter `BusErrorT` (R8, R221, D17) is a set of tokens: this value is in it, so that a bus can
report some error. -/
opaque Config.firstBusError : Nat

/-- Which further tokens are values of `BusErrorT`: any set of them at all. -/
opaque Config.isBusError : Nat → Bool

/-- The parameter type `BusErrorT` (R8, R221, D17): the tokens that the two parameters above name, which
may be one, finitely many or without end. The block never looks inside a value: `e` is carried from the bus
to the result unchanged. DESIGN CHOICE: countable, so that a state is plain data, and not empty (log entry
3). -/
structure BusErrorT where
  token : Nat
  isValue : token = Config.firstBusError ∨ Config.isBusError token = true
deriving DecidableEq, Repr

/-- A value of `BusErrorT`. -/
def BusErrorT.first : BusErrorT := ⟨Config.firstBusError, .inl rfl⟩

/-- The parameter `EN_ASSERT_LEVEL` in {Low, High} (R8, R204, D11): no value is known. -/
opaque Config.enAssertLevel : Level

/-- The addresses of the registers beside XACTUAL and VMAX, before the constraints of R52 are put
on them: any list at all (R52, D3; the full table is in no source, N1). -/
opaque Config.rawRegisters : List Addr

/-- Which address of the populated range is certainly not in the table (R52 (d): "not every value
in that range is present"), counted among the 114 values that are neither XACTUAL nor VMAX. -/
opaque Config.gapIndex : Fin 114

/-- The address that `Config.gapIndex` counts to: 0x00 to 0x73 without 0x21 and 0x27. -/
def Config.gap : Addr :=
  let k := Config.gapIndex.val
  if k ≤ 0x20 then BitVec.ofNat 7 k
  else if k ≤ 0x25 then BitVec.ofNat 7 (k + 1)
  else BitVec.ofNat 7 (k + 2)

/-- May this address be a further entry of `REGS`? It lies in 0x00 to 0x73 (R52 (d)), is not that of
XACTUAL or VMAX, which are entries already (R52 (e), injectivity R52 (b)), and is not the gap. -/
def Config.mayBeFurther (a : Addr) : Bool :=
  decide (a.toNat ≤ 0x73) && a != 0x21#7 && a != 0x27#7 && a != Config.gap

/-- The addresses of the entries of `REGS` beside XACTUAL and VMAX: every table that R52 allows is
one value of this list (up to the order), and every value of it is such a table. -/
def Config.furtherRegs : List Addr := (Config.rawRegisters.filter Config.mayBeFurther).dedup

/-- The contents of a frame register where no rule gives them (R24, R27, U8). -/
opaque Config.freeFrame : Nat → Frame

/-- The answer of a diagnostic line where nothing in the state's input stream gives it (R29: "The
level of an input is not state of the block"). -/
opaque Config.freeDiag : DiagLine → Nat → DiagAnswer

/-- The bit of the status byte that carries each flag (R141). spec/93_implementation_defined.md U4
asks for the map as a parameter with a fixed default: the default is `Machine.statusLayout`. -/
structure StatusLayout where
  stopLeft : Nat
  stopRight : Nat
  positionReached : Nat
  velocityReached : Nat
  standstill : Nat
  stallFlag : Nat
  driverError : Nat
  resetFlag : Nat
deriving DecidableEq, Repr

end Sys2Proof
end

