-- ==== Sys2Proof/Syntax.lean ====
section
/-! DEFINITION. The thirteen operations (spec/30_encoding.md R92), the Register identifiers
(spec/20_memory.md R51 to R53) and the command tuple of the command port (spec/10_state.md R21). -/

namespace Sys2Proof

/-- A Register identifier: an element of `REGS` and nothing else (R52, R53: "the type has no such
value"). The two entries the source names, and the further ones of the parameter table. -/
inductive Reg where
  | xactual
  | vmax
  | other (k : Fin Config.furtherRegs.length)
deriving DecidableEq, Repr, Inhabited

/-- One constructor per row of the operation map R92. WRS32 and WRU32 carry the integers the host
writes (R182, R183); their range is `WellFormed`'s. -/
inductive Instr where
  | xfer (c : Byte) (p : Payload)
  | rdraw (r : Reg)
  | rds32 (r : Reg)
  | rdu32 (r : Reg)
  | wrraw (r : Reg) (p : Payload)
  | wrs32 (r : Reg) (v : Int)
  | wru32 (r : Reg) (u : Nat)
  | csassert
  | csrelease
  | enassert
  | enrelease
  | rddiag0
  | rddiag1
deriving DecidableEq, Repr, Inhabited

/-- The tuple `(op, reg, cmd, wdata)` of the command port (R21). `reg` is the number of a Register
identifier; the numbering is the model's (log entry 2). -/
structure Command where
  op : BitVec 4
  reg : BitVec 7
  cmd : Byte
  wdata : Payload
deriving DecidableEq, Repr, Inhabited

end Sys2Proof
end

