-- ==== Sys2Proof/WellFormed.lean ====
section
/-! DEFINITION. Which operations a host can write down: the operand ranges of
spec/43_write_accessors.md R182 and R183. A Register operand needs no check (R53: its type has no
value outside `REGS`), and every command byte and payload is legal (spec/30_encoding.md R91 (b)). -/

namespace Sys2Proof

/-- R182: `-2147483648 <= V <= 2147483647`. -/
def signedInRange (v : Int) : Bool := decide (-2147483648 ≤ v) && decide (v ≤ 2147483647)

/-- R183: `0 <= U <= 4294967295`. -/
def unsignedInRange (u : Nat) : Bool := decide (u ≤ 4294967295)

/-- The operand checks, one arm per operation. -/
def wellFormed (i : Instr) : Bool :=
  match i with
  | .xfer _ _ => true
  | .rdraw _ => true
  | .rds32 _ => true
  | .rdu32 _ => true
  | .wrraw _ _ => true
  | .wrs32 _ v => signedInRange v
  | .wru32 _ u => unsignedInRange u
  | .csassert => true
  | .csrelease => true
  | .enassert => true
  | .enrelease => true
  | .rddiag0 => true
  | .rddiag1 => true

/-- `wellFormed` as a proposition. -/
abbrev WellFormed (i : Instr) : Prop := wellFormed i = true

end Sys2Proof
end

