-- ==== Sys2Proof/Machine/Operands.lean ====
section
/-! DEFINITION. Operand forms: the address function (spec/20_memory.md R51, R52), the serialisation
functions (spec/00_scope.md R13), the command byte and the transmit frames (spec/30_encoding.md R81 to
R88; spec/40_transaction_engine.md R123), and reading a frame back (R83, R90). -/

namespace Sys2Proof

/-- `addr : REGS -> {0 .. 0x7F}` (R51), with `addr(XACTUAL) = 0x21` and `addr(VMAX) = 0x27`
(R52 (e)). -/
def addr : Reg → Addr
  | .xactual => 0x21#7
  | .vmax => 0x27#7
  | .other k => Config.furtherRegs.get k

/-- `ser32(v) = [v[7:0], v[15:8], v[23:16], v[31:24]]` (R13, R54). -/
def ser32 (v : Word) : Payload :=
  ⟨v.extractLsb' 0 8, v.extractLsb' 8 8, v.extractLsb' 16 8, v.extractLsb' 24 8⟩

/-- `de32(p)`: `p3 ‖ p2 ‖ p1 ‖ p0` (R13, R54). -/
def de32 (p : Payload) : Word := p.p3 ++ p.p2 ++ p.p1 ++ p.p0

/-- The signed reading `s(de32(p))` (R13, R88, R162). -/
def signedReading (p : Payload) : Int := (de32 p).toInt

/-- The unsigned reading `u(de32(p))` (R13, R88, R163). -/
def unsignedReading (p : Payload) : Nat := (de32 p).toNat

/-- The payload of WRS32: `ser32(v)` for the two's-complement `v` with `s(v) = V` (R86, R182, R185). -/
def signedPayload (v : Int) : Payload := ser32 (BitVec.ofInt 32 v)

/-- The payload of WRU32: `ser32(v)` for the `v` with `u(v) = U` (R86, R183). -/
def unsignedPayload (u : Nat) : Payload := ser32 (BitVec.ofNat 32 u)

/-- The write flag `0x80` of byte 0 (R7). -/
def writeFlag : Byte := 0x80#8

/-- `cmdbyte(w, r) = (w ? 0x80 : 0x00) | zext_8(addr(r))` (R85). -/
def cmdByte (w : Bool) (r : Reg) : Byte :=
  (if w then writeFlag else 0x00#8) ||| (addr r).setWidth 8

/-- Format `TXR` (R81): the read command frame. -/
def readFrame (r : Reg) : Frame := Frame.ofParts (cmdByte false r) Payload.zero

/-- Format `TXW` (R82): the write command frame. -/
def writeFrame (r : Reg) (p : Payload) : Frame := Frame.ofParts (cmdByte true r) p

/-- `frame_of` (R123): the transmit frame of a frame operation; a line operation has none. -/
def frameOf (i : Instr) : Option Frame :=
  match i with
  | .xfer c p => some (Frame.ofParts c p)
  | .rdraw r => some (readFrame r)
  | .rds32 r => some (readFrame r)
  | .rdu32 r => some (readFrame r)
  | .wrraw r p => some (writeFrame r p)
  | .wrs32 r v => some (writeFrame r (signedPayload v))
  | .wru32 r u => some (writeFrame r (unsignedPayload u))
  | .csassert => none
  | .csrelease => none
  | .enassert => none
  | .enrelease => none
  | .rddiag0 => none
  | .rddiag1 => none

/-- Is this a frame operation (R15: one that performs exactly one transaction)? -/
def isFrameOp (i : Instr) : Bool := (frameOf i).isSome

/-- The wire formats of R92's column "transmit format" (`RAW` is XFER's). -/
inductive WireFormat where
  | raw
  | txr
  | txw
deriving DecidableEq, Repr

/-- A frame as one 40-bit pattern, byte 0 leftmost (R10, R83). -/
def wireBits (f : Frame) : BitVec 40 := f.b0 ++ f.b1 ++ f.b2 ++ f.b3 ++ f.b4

/-- The mask over the 40-bit pattern (R83). -/
def WireFormat.mask : WireFormat → BitVec 40
  | .raw => 0x0000000000#40
  | .txr => 0x80FFFFFFFF#40
  | .txw => 0x8000000000#40

/-- The match over the 40-bit pattern (R83). -/
def WireFormat.pattern : WireFormat → BitVec 40
  | .raw => 0x0000000000#40
  | .txr => 0x0000000000#40
  | .txw => 0x8000000000#40

/-- Does a frame have a format (R83)? -/
def WireFormat.admits (w : WireFormat) (f : Frame) : Bool := wireBits f &&& w.mask == w.pattern

/-- The transmit format of an operation (R92). -/
def formatOf (i : Instr) : Option WireFormat :=
  match i with
  | .xfer _ _ => some .raw
  | .rdraw _ => some .txr
  | .rds32 _ => some .txr
  | .rdu32 _ => some .txr
  | .wrraw _ _ => some .txw
  | .wrs32 _ _ => some .txw
  | .wru32 _ _ => some .txw
  | .csassert => none
  | .csrelease => none
  | .enassert => none
  | .enrelease => none
  | .rddiag0 => none
  | .rddiag1 => none

/-- What a frame says by itself (R90): the write flag, the address and the 32-bit value. -/
structure FrameView where
  write : Bool
  address : Addr
  value : Word
deriving DecidableEq, Repr

/-- Reading a transmit frame back (R90). -/
def readBack (f : Frame) : FrameView :=
  ⟨f.b0.getLsbD 7, f.b0.extractLsb' 0 7, de32 f.payload⟩

end Sys2Proof
end

