-- ==== Sys2Proof/Decode.lean ====
section
/-! DEFINITION. The operation map of spec/30_encoding.md R92 both ways: from the command tuple of the
command port to an operation, rejecting by name (R91), and back. -/

namespace Sys2Proof

/-- Why a command names no operation. -/
inductive Reject where
  /-- Selector values 13, 14 and 15 are reserved (R91 (a), U5). -/
  | reservedSelector (op : BitVec 4)
  /-- The number on `reg` is that of no Register identifier (R53, R91 (c)). -/
  | noSuchRegister (code : BitVec 7)
deriving DecidableEq, Repr

/-- The Register identifier numbered `code`: 0 is XACTUAL, 1 is VMAX, the further entries follow.
DESIGN CHOICE: the spec gives identifiers no numbers (log entry 2). -/
def decodeReg (code : BitVec 7) : Except Reject Reg :=
  if code.toNat = 0 then .ok .xactual
  else if code.toNat = 1 then .ok .vmax
  else if h : code.toNat - 2 < Config.furtherRegs.length then .ok (.other ⟨code.toNat - 2, h⟩)
  else .error (.noSuchRegister code)

/-- The number of a Register identifier (the inverse of `decodeReg`). -/
def regCode : Reg → BitVec 7
  | .xactual => 0#7
  | .vmax => 1#7
  | .other k => BitVec.ofNat 7 (k.val + 2)

/-- From the command tuple to the operation (R21, R92). Fields an operation does not use are
ignored (R21); WRS32 and WRU32 read `wdata` as the 32-bit value the host supplied. -/
def decode (c : Command) : Except Reject Instr :=
  match c.op.toNat with
  | 0 => .ok (.xfer c.cmd c.wdata)
  | 1 => (decodeReg c.reg).map .rdraw
  | 2 => (decodeReg c.reg).map .rds32
  | 3 => (decodeReg c.reg).map .rdu32
  | 4 => (decodeReg c.reg).map (fun r => .wrraw r c.wdata)
  | 5 => (decodeReg c.reg).map (fun r => .wrs32 r (signedReading c.wdata))
  | 6 => (decodeReg c.reg).map (fun r => .wru32 r (unsignedReading c.wdata))
  | 7 => .ok .csassert
  | 8 => .ok .csrelease
  | 9 => .ok .enassert
  | 10 => .ok .enrelease
  | 11 => .ok .rddiag0
  | 12 => .ok .rddiag1
  | _ => .error (.reservedSelector c.op)

/-- The 4-bit selector of an operation (R89, R92). -/
def selector (i : Instr) : BitVec 4 :=
  match i with
  | .xfer _ _ => 0#4
  | .rdraw _ => 1#4
  | .rds32 _ => 2#4
  | .rdu32 _ => 3#4
  | .wrraw _ _ => 4#4
  | .wrs32 _ _ => 5#4
  | .wru32 _ _ => 6#4
  | .csassert => 7#4
  | .csrelease => 8#4
  | .enassert => 9#4
  | .enrelease => 10#4
  | .rddiag0 => 11#4
  | .rddiag1 => 12#4

/-- The mnemonic of an operation (R92). -/
def mnemonic (i : Instr) : String :=
  match i with
  | .xfer _ _ => "XFER"
  | .rdraw _ => "RDRAW"
  | .rds32 _ => "RDS32"
  | .rdu32 _ => "RDU32"
  | .wrraw _ _ => "WRRAW"
  | .wrs32 _ _ => "WRS32"
  | .wru32 _ _ => "WRU32"
  | .csassert => "CSASSERT"
  | .csrelease => "CSRELEASE"
  | .enassert => "ENASSERT"
  | .enrelease => "ENRELEASE"
  | .rddiag0 => "RDDIAG0"
  | .rddiag1 => "RDDIAG1"

/-- The command tuple by which the host presents an operation (R21, R92); unused fields are zero. -/
def encode (i : Instr) : Command :=
  match i with
  | .xfer c p => ⟨0#4, 0#7, c, p⟩
  | .rdraw r => ⟨1#4, regCode r, 0#8, Payload.zero⟩
  | .rds32 r => ⟨2#4, regCode r, 0#8, Payload.zero⟩
  | .rdu32 r => ⟨3#4, regCode r, 0#8, Payload.zero⟩
  | .wrraw r p => ⟨4#4, regCode r, 0#8, p⟩
  | .wrs32 r v => ⟨5#4, regCode r, 0#8, signedPayload v⟩
  | .wru32 r u => ⟨6#4, regCode r, 0#8, unsignedPayload u⟩
  | .csassert => ⟨7#4, 0#7, 0#8, Payload.zero⟩
  | .csrelease => ⟨8#4, 0#7, 0#8, Payload.zero⟩
  | .enassert => ⟨9#4, 0#7, 0#8, Payload.zero⟩
  | .enrelease => ⟨10#4, 0#7, 0#8, Payload.zero⟩
  | .rddiag0 => ⟨11#4, 0#7, 0#8, Payload.zero⟩
  | .rddiag1 => ⟨12#4, 0#7, 0#8, Payload.zero⟩

/-- The command tuple laid out as one word, selector in bits 3:0 as spec/opcode_table.json numbers
it. DESIGN CHOICE: the spec orders no other field; here `cmd` is bits 11:4, `wdata` bits 43:12
(payload byte 0 lowest) and `reg` bits 50:44 (log entry 2). -/
def Command.ofNat (w : Nat) : Command :=
  ⟨BitVec.ofNat 4 w, BitVec.ofNat 7 (w / 2 ^ 44), BitVec.ofNat 8 (w / 2 ^ 4),
    ⟨BitVec.ofNat 8 (w / 2 ^ 12), BitVec.ofNat 8 (w / 2 ^ 20), BitVec.ofNat 8 (w / 2 ^ 28),
      BitVec.ofNat 8 (w / 2 ^ 36)⟩⟩

/-- The word of a command tuple (the inverse of `Command.ofNat`). -/
def Command.toNat (c : Command) : Nat :=
  c.op.toNat + c.cmd.toNat * 2 ^ 4 + c.wdata.p0.toNat * 2 ^ 12 + c.wdata.p1.toNat * 2 ^ 20
    + c.wdata.p2.toNat * 2 ^ 28 + c.wdata.p3.toNat * 2 ^ 36 + c.reg.toNat * 2 ^ 44

/-- The command a table word of `nbits` bits stands for: every bit above `nbits` is 0. -/
def Command.ofTableWord (nbits w : Nat) : Command := Command.ofNat (w % 2 ^ nbits)

/-- The decoder on a word, total: any number is read as a command or refused by name. -/
def decodeWord (w : Nat) : Except Reject Instr := decode (Command.ofNat w)

/-- The encoder on words. -/
def encodeWord (i : Instr) : Nat := (encode i).toNat

/-- The instruction the decoder reads from a table word. -/
def decodeTableWord (nbits w : Nat) : Option Instr :=
  match decode (Command.ofTableWord nbits w) with
  | .ok i => some i
  | .error _ => none

end Sys2Proof
end

