-- ==== Sys2Proof/Machine/State.lean ====
section
/-! DEFINITION. The state of the block (spec/10_state.md R23 to R40), what the outside presents to its
ports (R20, R21, R27, R29; spec/70_reset_and_hazards.md R260), and the state after reset (R37). -/

namespace Sys2Proof.Machine

/-- The phase register (R23). -/
inductive Phase where
  | idle
  | selected
  | transferring
  | released
deriving DecidableEq, Repr, Inhabited

/-- An output latch: `Low`, `High` or `Undef` (R30, R31; `Undef` is the spec's own third value). -/
inductive Latch where
  | low
  | high
  | undef
deriving DecidableEq, Repr, Inhabited

/-- The record of eight flags (R140). -/
structure Status where
  stopLeft : Bool
  stopRight : Bool
  positionReached : Bool
  velocityReached : Bool
  standstill : Bool
  stallFlag : Bool
  driverError : Bool
  resetFlag : Bool
deriving DecidableEq, Repr

/-- A result on the result port (R22). -/
inductive OpResult where
  | ok (st : Status) (p : Payload)
  | busErr (e : BusErrorT)
  | done
  | level (b : Bool)
deriving DecidableEq, Repr

/-- How an exchange ended: the bus's answer, or the host's CANCEL before one (R40). -/
inductive ExchangeEnd where
  | ok (rx : Frame)
  | err (e : BusErrorT)
  | cancelled
deriving DecidableEq, Repr

/-- The events of the trace (R40). -/
inductive Event where
  | csLow
  | csHigh
  | enLow
  | enHigh
  | xchg (tx : Frame) (ans : ExchangeEnd)
  | diag (line : DiagLine) (ans : DiagAnswer)
deriving DecidableEq, Repr

/-- What the outside sees of the block (R40): events of the trace and results on the result port, in
one order (R62, R117: a result comes after its operation's `CsHigh`). -/
inductive Obs where
  | event (e : Event)
  | result (r : OpResult)
deriving DecidableEq, Repr

/-- Whether the bus answered `Ok` or `Err(e)`, as `cur` records it (R25). -/
inductive Verdict where
  | ok
  | err (e : BusErrorT)
deriving DecidableEq, Repr

/-- The latched operation `cur` (R25): the accepted command and, once the bus has answered, which
answer it was. -/
structure Latched where
  op : Instr
  answer : Option Verdict
deriving DecidableEq, Repr, Inhabited

end Sys2Proof.Machine

namespace Sys2Proof

/-- The contents of `cur` where no rule gives them (R25, U8). -/
opaque Config.freeLatched : Nat → Machine.Latched

end Sys2Proof

namespace Sys2Proof.Machine

/-- What happens on the bus port at one look at it while the block waits (R20 (b), (c), R121, R122,
R227): the bus has not answered, answers, or the host cancels. -/
inductive BusTurn where
  | silent
  | ok (rx : Frame)
  | err (e : BusErrorT)
  | cancel
deriving DecidableEq, Repr

/-- What the outside presents to the ports at one step: the command port (R21), the bus port (R27)
with the host's CANCEL (R122), the two diagnostic inputs (R29) and the reset input (R260). -/
structure Pins where
  command : Option Command
  bus : BusTurn
  diag0 : DiagAnswer
  diag1 : DiagAnswer
  reset : Bool
deriving DecidableEq, Repr

/-- The answer that stands on a diagnostic input. -/
def Pins.diag (p : Pins) : DiagLine → DiagAnswer
  | .diag0 => p.diag0
  | .diag1 => p.diag1

/-- An outside that does nothing: no command, a silent bus, no reset; the diagnostic lines still
have some answer, which nothing fixes (log entry 5). -/
def Pins.quiet (n : Nat) : Pins :=
  ⟨none, .silent, Config.freeDiag .diag0 n, Config.freeDiag .diag1 n, false⟩

/-- The machine. `phase`, `txb`, `rxb`, `cur`, `halted`, `cs`, `en` are the spec's state elements (R23
to R31); `obs` is the observation of R40; `pins` and `future` are the outside, now and later, and
`draws` counts the free values taken (log entries 4, 5 and 6). -/
@[ext]
structure State where
  phase : Phase
  txb : Frame
  rxb : Frame
  cur : Latched
  halted : Bool
  cs : Latch
  en : Latch
  obs : List Obs
  pins : Pins
  future : List Pins
  draws : Nat
deriving DecidableEq, Repr

/-- Why the machine has no step. -/
inductive Fault where
  /-- The block is halted by `FatalIo` and takes no step until reset (R26, R222, R229, U13). Raised by
  `step` and by every operation presented in that state. Safe: the spec gives no step. -/
  | halted
deriving DecidableEq, Repr

/-- Why an operation gets no meaning. -/
inductive Refusal where
  /-- An operation with no meaning in this model: raised by no arm. Safe. -/
  | notModelled (mnemonic : String)
  /-- Selector 13, 14 or 15 on the command port (R91 (a), U5: `refuse`). Raised by `step`. Safe. -/
  | reservedSelector (op : BitVec 4)
  /-- A number on `reg` that is no Register identifier (R53: the host cannot present one). Raised by
  `step`. Safe. -/
  | noSuchRegister (code : BitVec 7)
  /-- The command port accepts nothing while `phase` is not `Idle` (R21, R120, R124 (a)). Raised by
  every operation; `step` presents none in such a phase. Safe. -/
  | portBusy
  /-- An operation other than CSRELEASE presented while `cs = Undef` (R124 (c), U3: `refuse`). Raised by
  every operation but CSRELEASE. Safe. -/
  | chipSelectUndefined
deriving DecidableEq, Repr

/-- The outcome of a step of this machine. -/
abbrev Result := Host.Outcome State Fault Refusal

/-- The state after reset (R37): `phase = Idle`, `cs = High`, `en = Undef`, `halted = false`, trace
empty. `TXB`, `RXB` and `cur` have no reset value in the spec: DESIGN CHOICE zero bytes and an
unanswered `XFER 0x00, [0,0,0,0]` (log entry 1). Nothing stands on the command port. -/
def State.reset : State where
  phase := .idle
  txb := ⟨0#8, 0#8, 0#8, 0#8, 0#8⟩
  rxb := ⟨0#8, 0#8, 0#8, 0#8, 0#8⟩
  cur := ⟨.xfer 0#8 Payload.zero, none⟩
  halted := false
  cs := .high
  en := .undef
  obs := []
  pins := Pins.quiet 0
  future := []
  draws := 1

end Sys2Proof.Machine
end

