-- ==== Sys2Proof/Machine/Flags.lean ====
section
/-! DEFINITION. The status-byte decoder (spec/41_status_decode.md R140 to R153): the bit-field extract
that turns receive byte 0 into the eight flags, its inverse (R150), and what a host reads from a result
(spec/10_state.md R22; spec/60_exceptions.md R223). -/

namespace Sys2Proof.Machine

/-- The bit of each flag: the table of R141, which governs (R152). U4 asks for it as a parameter with
this default: a repair of the layout changes this definition and nothing else. -/
def statusLayout : StatusLayout where
  stopLeft := 7
  stopRight := 6
  positionReached := 5
  velocityReached := 4
  standstill := 3
  stallFlag := 2
  driverError := 1
  resetFlag := 0

/-- `status_decode` (R140): each flag is its bit of the byte, true when the bit is 1. -/
def statusDecode (b : Byte) : Status where
  stopLeft := b.getLsbD statusLayout.stopLeft
  stopRight := b.getLsbD statusLayout.stopRight
  positionReached := b.getLsbD statusLayout.positionReached
  velocityReached := b.getLsbD statusLayout.velocityReached
  standstill := b.getLsbD statusLayout.standstill
  stallFlag := b.getLsbD statusLayout.stallFlag
  driverError := b.getLsbD statusLayout.driverError
  resetFlag := b.getLsbD statusLayout.resetFlag

/-- One flag at its bit, reading true as 1 (R150). -/
def flagBit (b : Bool) (n : Nat) : Byte := (if b then 1#8 else 0#8) <<< n

/-- `status_encode` (R150). The block has no use for it. -/
def statusEncode (st : Status) : Byte :=
  flagBit st.stopLeft statusLayout.stopLeft
    ||| flagBit st.stopRight statusLayout.stopRight
    ||| flagBit st.positionReached statusLayout.positionReached
    ||| flagBit st.velocityReached statusLayout.velocityReached
    ||| flagBit st.standstill statusLayout.standstill
    ||| flagBit st.stallFlag statusLayout.stallFlag
    ||| flagBit st.driverError statusLayout.driverError
    ||| flagBit st.resetFlag statusLayout.resetFlag

/-- `result_of(Ok(rx))` (R123, R88): the decoded status and the four response bytes unmodified. -/
def okResult (rx : Frame) : OpResult := .ok (statusDecode rx.b0) rx.payload

/-- The status of a result, where it carries one (R151). -/
def OpResult.status? : OpResult → Option Status
  | .ok st _ => some st
  | .busErr _ => none
  | .done => none
  | .level _ => none

/-- The host's signed reading of a result (R22, R162): `s(de32(p))` of a success. -/
def OpResult.signed? : OpResult → Option Int
  | .ok _ p => some (signedReading p)
  | .busErr _ => none
  | .done => none
  | .level _ => none

/-- The host's unsigned reading of a result (R22, R163): `u(de32(p))` of a success. -/
def OpResult.unsigned? : OpResult → Option Nat
  | .ok _ p => some (unsignedReading p)
  | .busErr _ => none
  | .done => none
  | .level _ => none

/-- The outcome of an operation (R223, D17); `fatalIo` delivers no result. -/
inductive OutcomeCode where
  | ok
  | busError
  | fatalIo
deriving DecidableEq, Repr

/-- The number of an outcome (R223). -/
def outcomeNumber : OutcomeCode → Nat
  | .ok => 0
  | .busError => 1
  | .fatalIo => 2

/-- The outcome a delivered result stands for (R223). -/
def OpResult.outcome : OpResult → OutcomeCode
  | .ok _ _ => .ok
  | .busErr _ => .busError
  | .done => .ok
  | .level _ => .ok

end Sys2Proof.Machine
end

