-- ==== Sys2Proof/Machine/Ops.lean ====
section
/-! DEFINITION. The named operations over the state: the observation (spec/10_state.md R40), the drives
of the output latches (R28, R30, R31), the free values of unspecified registers (R24, R25), admission to
the command port (spec/40_transaction_engine.md R124), the two errors (spec/60_exceptions.md R228, R229),
reset (spec/70_reset_and_hazards.md R260) and the input stream. -/

namespace Sys2Proof.Machine

/-- The 2-bit code of a phase (R23); it is on no port. -/
def Phase.code : Phase → BitVec 2
  | .idle => 0#2
  | .selected => 1#2
  | .transferring => 2#2
  | .released => 3#2

/-- The value of a latch that is driven to a level. -/
def latchOf : Level → Latch
  | .low => .low
  | .high => .high

/-- The event of an observation, if it is one. -/
def Obs.event? : Obs → Option Event
  | .event e => some e
  | .result _ => none

/-- The result of an observation, if it is one. -/
def Obs.result? : Obs → Option OpResult
  | .event _ => none
  | .result r => some r

/-- The event trace (R40), oldest first. -/
def State.trace (s : State) : List Event := s.obs.filterMap Obs.event?

/-- The results delivered on the result port (R22), oldest first. -/
def State.results (s : State) : List OpResult := s.obs.filterMap Obs.result?

/-- Record an event (R40). -/
def State.emit (s : State) (e : Event) : State := { s with obs := s.obs ++ [.event e] }

/-- `result <- r`: deliver a result on the result port (R11, R22). -/
def State.deliver (s : State) (r : OpResult) : State := { s with obs := s.obs ++ [.result r] }

/-- The event of a chip-select drive (R40). -/
def csEvent : Level → Event
  | .low => .csLow
  | .high => .csHigh

/-- The event of an enable drive (R40). -/
def enEvent : Level → Event
  | .low => .enLow
  | .high => .enHigh

/-- `DriveCS(l)` (R11, R28): sets the latch and records the event; it cannot fail (D9). -/
def driveCs (l : Level) (s : State) : State := { s.emit (csEvent l) with cs := latchOf l }

/-- `DriveEN(l)` (R11, R28): sets the latch and records the event; it cannot fail (D9). -/
def driveEn (l : Level) (s : State) : State := { s.emit (enEvent l) with en := latchOf l }

/-- `TXB` becomes unspecified (R24, R27): a free value. -/
def forgetTxb (s : State) : State :=
  { s with txb := Config.freeFrame s.draws, draws := s.draws + 1 }

/-- `RXB` becomes unspecified (R24, R115): a free value. -/
def forgetRxb (s : State) : State :=
  { s with rxb := Config.freeFrame s.draws, draws := s.draws + 1 }

/-- `cur` becomes unspecified (R25): a free value. -/
def forgetCur (s : State) : State :=
  { s with cur := Config.freeLatched s.draws, draws := s.draws + 1 }

/-- `cur`, `TXB` and `RXB` become unspecified (R116, R122, R260). -/
def forgetTransient (s : State) : State := forgetRxb (forgetTxb (forgetCur s))

/-- Admission to the command port (R21, R124): halted, no step at all; busy, not accepted; `cs = Undef`,
refused, but for an operation that may run then (`undefOk`, CSRELEASE alone). Else `t` is next. -/
def admitted (undefOk : Bool) (s t : State) : Result :=
  if s.halted then .fault .halted
  else if s.phase ≠ .idle then .refused .portBusy
  else if s.cs = .undef ∧ undefOk = false then .refused .chipSelectUndefined
  else .next t

/-- `raise BusError(e)` (R221, R228, R241): the result `BusErr(e)`, `e` unchanged; nothing is saved,
no status and no payload are delivered. -/
def raiseBusError (e : BusErrorT) (s : State) : State := s.deliver (.busErr e)

/-- `raise FatalIo` (R222, R229): `halted` is set, no result is delivered, the lines keep their levels. -/
def raiseFatalIo (s : State) : State := { s with halted := true }

/-- `SampleDIAG(i)` and what follows it (R207, R208): the sample is recorded; `Ok(b)` gives the result
`Level(b)`, `IoFail` raises `FatalIo`. -/
def sampleDiag (line : DiagLine) (s : State) : State :=
  let t := s.emit (.diag line (s.pins.diag line))
  match s.pins.diag line with
  | .ok b => t.deliver (.level b)
  | .ioFail => raiseFatalIo t

/-- The reset event (R260), in any state: every state element at its value of R37; `TXB`, `RXB` and `cur`
are unspecified, so free values. The return from `FatalIo` (R232). -/
def applyReset (s : State) : State :=
  forgetTransient
    { s with phase := .idle, halted := false, cs := .high, en := .undef, obs := [] }

/-- The next look at the ports: the outside moves on. When nothing more is given, it is quiet. -/
def advance (s : State) : State :=
  match s.future with
  | p :: ps => { s with pins := p, future := ps }
  | [] => { s with pins := Pins.quiet s.draws, draws := s.draws + 1 }

/-- Apply a function to the next state of an outcome. -/
def mapNext (f : State → State) (r : Result) : Result :=
  match r with
  | .next t => .next (f t)
  | .fault e => .fault e
  | .refused e => .refused e

/-- How the model refuses what the decoder rejects (R91). -/
def refusalOf : Reject → Refusal
  | .reservedSelector op => .reservedSelector op
  | .noSuchRegister code => .noSuchRegister code

/-- What the host presents on the command port (R21), read by the decoder. -/
def fetch (s : State) : Option (Except Reject Instr) := s.pins.command.map decode

/-- The outside presents command `c` at the next look at the ports, with the reset input quiet. -/
def present (c : Command) (s : State) : State :=
  { s with pins := { s.pins with command := some c, reset := false } }

end Sys2Proof.Machine
end

