-- ==== Sys2Proof/Machine/Engine.lean ====
section
/-! DEFINITION. The transaction engine and its phase machine (spec/40_transaction_engine.md R110 to R126):
one definition per step of the spec (R112 to R116, R122), the step relation `phaseStep` (R126), and
`settle`, which takes the steps the block can take without waiting. -/

namespace Sys2Proof.Machine

/-- Accept step, `Idle -> Selected` (R112); its guard is `admitted`'s. -/
def accept (i : Instr) (tx : Frame) (s : State) : State :=
  { driveCs .low { s with cur := ⟨i, none⟩, txb := tx } with phase := .selected }

/-- Start step, `Selected -> Transferring` (R113). -/
def startExchange (s : State) : State := { s with phase := .transferring }

/-- Completion step on success, `Transferring -> Released` (R114); `TXB` is unspecified after the
exchange (R24, R27). -/
def completeOk (rx : Frame) (s : State) : State :=
  forgetTxb
    { driveCs .high ({ s with rxb := rx }.emit (.xchg s.txb (.ok rx))) with
      cur := { s.cur with answer := some .ok }, phase := .released }

/-- Completion step on bus error, `Transferring -> Released` (R115): chip-select is released as on
success, `RXB` is unspecified, and there is no retry. -/
def completeErr (e : BusErrorT) (s : State) : State :=
  forgetRxb <| forgetTxb
    { driveCs .high (s.emit (.xchg s.txb (.err e))) with
      cur := { s.cur with answer := some (.err e) }, phase := .released }

/-- Cancel step of the host, `Transferring -> Idle` (R122): no drive, no result, `cs <- Undef`. -/
def cancelExchange (s : State) : State :=
  forgetTransient { s.emit (.xchg s.txb .cancelled) with cs := .undef, phase := .idle }

/-- Result step, `Released -> Idle` (R116). A `Released` phase whose `cur` records no answer cannot be
(`State.Inv`); no rule of R126 moves it. -/
def resultStep (s : State) : State :=
  match s.cur.answer with
  | some .ok => forgetTransient { s.deliver (okResult s.rxb) with phase := .idle }
  | some (.err e) => forgetTransient { raiseBusError e s with phase := .idle }
  | none => s

/-- One look at the bus port in `Transferring`: wait (R121), complete (R114, R115) or be cancelled
(R122). Which of an answer and a CANCEL fires is the outside's choice (R227). -/
def pollBus (s : State) : State :=
  match s.pins.bus with
  | .silent => s
  | .ok rx => completeOk rx s
  | .err e => completeErr e s
  | .cancel => cancelExchange s

/-- The spec's step relation on the phases (R126), at its own grain; in `Idle` the block takes no step
of its own. -/
def phaseStep (s : State) : State :=
  match s.phase with
  | .idle => s
  | .selected => startExchange s
  | .transferring => pollBus s
  | .released => resultStep s

/-- The steps a frame operation takes before the block is idle again or waits for the bus (R121: "The
only place the block waits is `Transferring`"): start, look at the bus, result. -/
def settle (s : State) : State := phaseStep (phaseStep (phaseStep s))

/-- A frame operation (R110, R111): accept, then as far as the bus lets it go. -/
def frameOp (i : Instr) (tx : Frame) (s : State) : Result := admitted false s (settle (accept i tx s))

end Sys2Proof.Machine
end

