-- ==== Sys2Proof/Machine/Frames.lean ====
section
/-! DEFINITION. The meanings of the seven frame operations: XFER (spec/40_transaction_engine.md R111), the
read accessors (spec/42_read_accessors.md R160 to R165), the write accessors
(spec/43_write_accessors.md R180 to R186), and the memory shorthands of spec/00_scope.md R12. -/

namespace Sys2Proof.Machine

/-- XFER (R111): the host's command byte and payload, sent unchanged. -/
def execXfer (c : Byte) (p : Payload) (s : State) : Result :=
  frameOp (.xfer c p) (Frame.ofParts c p) s

/-- RDRAW (R161). -/
def execRdraw (r : Reg) (s : State) : Result := frameOp (.rdraw r) (readFrame r) s

/-- RDS32 (R162): RDRAW's transaction; the host reads the result as `OpResult.signed?`. -/
def execRds32 (r : Reg) (s : State) : Result := frameOp (.rds32 r) (readFrame r) s

/-- RDU32 (R163): RDRAW's transaction; the host reads the result as `OpResult.unsigned?`. -/
def execRdu32 (r : Reg) (s : State) : Result := frameOp (.rdu32 r) (readFrame r) s

/-- WRRAW (R181). -/
def execWrraw (r : Reg) (p : Payload) (s : State) : Result :=
  frameOp (.wrraw r p) (writeFrame r p) s

/-- WRS32 (R182). -/
def execWrs32 (r : Reg) (v : Int) (s : State) : Result :=
  frameOp (.wrs32 r v) (writeFrame r (signedPayload v)) s

/-- WRU32 (R183). -/
def execWru32 (r : Reg) (u : Nat) (s : State) : Result :=
  frameOp (.wru32 r u) (writeFrame r (unsignedPayload u)) s

/-- `MemRead(a, 4)` (R12): the transaction `XFER(0x00 | a, [0,0,0,0])`. -/
def memRead (a : Addr) (s : State) : Result := execXfer (0x00#8 ||| a.setWidth 8) Payload.zero s

/-- `MemWrite(a, 4, p)` (R12): the transaction `XFER(0x80 | a, p)`. -/
def memWrite (a : Addr) (p : Payload) (s : State) : Result := execXfer (writeFlag ||| a.setWidth 8) p s

end Sys2Proof.Machine
end

