-- ==== Sys2Proof/Machine/Lines.lean ====
section
/-! DEFINITION. The meanings of the six line operations (spec/44_line_control.md R200 to R210). -/

namespace Sys2Proof.Machine

/-- CSASSERT (R201): chip-select Low, no exchange. -/
def execCsassert (s : State) : Result := admitted false s ((driveCs .low s).deliver .done)

/-- CSRELEASE (R202): chip-select High; the one operation admitted while `cs = Undef` (R233). -/
def execCsrelease (s : State) : Result := admitted true s ((driveCs .high s).deliver .done)

/-- ENASSERT (R205): the enable line at `EN_ASSERT_LEVEL` (R204). -/
def execEnassert (s : State) : Result :=
  admitted false s ((driveEn Config.enAssertLevel s).deliver .done)

/-- ENRELEASE (R206): the enable line at the other level (R204). -/
def execEnrelease (s : State) : Result :=
  admitted false s ((driveEn Config.enAssertLevel.other s).deliver .done)

/-- RDDIAG0 (R207). -/
def execRddiag0 (s : State) : Result := admitted false s (sampleDiag .diag0 s)

/-- RDDIAG1 (R208). -/
def execRddiag1 (s : State) : Result := admitted false s (sampleDiag .diag1 s)

end Sys2Proof.Machine
end

