-- ==== Sys2Proof/Machine/Dispatch.lean ====
section
/-! DEFINITION. One arm per operation of the map of spec/30_encoding.md R92. -/

namespace Sys2Proof.Machine

def exec (i : Instr) (s : State) : Host.Outcome State Fault Refusal :=
  match i with
  | .xfer c p => Sys2Proof.Machine.execXfer c p s
  | .rdraw r => Sys2Proof.Machine.execRdraw r s
  | .rds32 r => Sys2Proof.Machine.execRds32 r s
  | .rdu32 r => Sys2Proof.Machine.execRdu32 r s
  | .wrraw r p => Sys2Proof.Machine.execWrraw r p s
  | .wrs32 r v => Sys2Proof.Machine.execWrs32 r v s
  | .wru32 r u => Sys2Proof.Machine.execWru32 r u s
  | .csassert => Sys2Proof.Machine.execCsassert s
  | .csrelease => Sys2Proof.Machine.execCsrelease s
  | .enassert => Sys2Proof.Machine.execEnassert s
  | .enrelease => Sys2Proof.Machine.execEnrelease s
  | .rddiag0 => Sys2Proof.Machine.execRddiag0 s
  | .rddiag1 => Sys2Proof.Machine.execRddiag1 s

end Sys2Proof.Machine
end

