-- ==== Sys2Proof/Machine/Step.lean ====
section
/-! DEFINITION. One step of the machine: the reset input first (spec/70_reset_and_hazards.md R260), no step
while halted (spec/10_state.md R26), in `Idle` the operation on the command port (R21), in the other phases
the phase machine (spec/40_transaction_engine.md R126); then the outside moves on. -/

namespace Sys2Proof.Machine

/-- One step (R20 (a), R21, R26, R126, R260). -/
def step (s : State) : Host.Outcome State Fault Refusal :=
  if s.pins.reset then .next (advance (applyReset s))
  else if s.halted then .fault .halted
  else
    match s.phase with
    | .idle =>
      match fetch s with
      | none => .next (advance s)
      | some (.error e) => .refused (refusalOf e)
      | some (.ok i) => mapNext advance (exec i s)
    | .selected => .next (advance (settle s))
    | .transferring => .next (advance (settle s))
    | .released => .next (advance (settle s))

/-- The host presents the command of a table word on the command port, where `step` takes its next
operation from; the bits above `nbits` are 0. -/
def State.withFetchWord (s : State) (nbits w : Nat) : State := present (Command.ofTableWord nbits w) s

end Sys2Proof.Machine
end

