-- ==== Sys2Proof/Safety.lean ====
section
/-! DEFINITION. What counts as a safe run, in the terms the claims use: when an operation is admitted
(spec/40_transaction_engine.md R124), what a finished frame operation leaves (R117, R123), where a run may
end (spec/10_state.md R26, spec/95_test_vectors.md P4), and the invariant of the machine (R39), with the
observation of R40 read as a sequence of whole operations (R22, R62, R117 to R119). -/

namespace Sys2Proof.Machine

/-- The preconditions of every operation but CSRELEASE (R124). -/
def State.Ready (s : State) : Prop := s.halted = false ∧ s.phase = .idle ∧ s.cs ≠ .undef

/-- A state in which a run may end: idle, not halted (R26: never final), chip-select defined
(P4: "A run that stops after step 2 is not a clean end"). -/
def State.cleanEnd (s : State) : Bool := s.phase == .idle && !s.halted && s.cs != .undef

/-- A finished frame operation that was not cancelled (R117, R123): from `s` to `t` the outside saw
chip-select Low, the one exchange, chip-select High and then the result, and nothing else; the block is
idle with chip-select released; `en`, `halted` and the ports are as before. -/
structure FrameOpDone (s t : State) (tx : Frame) (ans : ExchangeEnd) (r : OpResult) : Prop where
  observed : t.obs = s.obs ++ [.event .csLow, .event (.xchg tx ans), .event .csHigh, .result r]
  phase_idle : t.phase = .idle
  cs_high : t.cs = .high
  en_kept : t.en = s.en
  halted_kept : t.halted = s.halted
  pins_kept : t.pins = s.pins
  future_kept : t.future = s.future

/-- A frame operation that waits for the bus (R121): chip-select is Low, the frame is handed over, and
no result has been delivered. -/
structure FrameOpWaits (s t : State) (i : Instr) (tx : Frame) : Prop where
  observed : t.obs = s.obs ++ [.event .csLow]
  phase_transferring : t.phase = .transferring
  cs_low : t.cs = .low
  txb_frame : t.txb = tx
  rxb_kept : t.rxb = s.rxb
  cur_latched : t.cur = ⟨i, none⟩
  en_kept : t.en = s.en
  halted_kept : t.halted = s.halted
  pins_kept : t.pins = s.pins
  future_kept : t.future = s.future

/-- A frame operation that the host cancelled while it waited (R122): chip-select was driven Low, the
exchange has no answer, no result is delivered, and chip-select is undefined. -/
structure FrameOpCancelled (s t : State) (tx : Frame) : Prop where
  observed : t.obs = s.obs ++ [.event .csLow, .event (.xchg tx .cancelled)]
  phase_idle : t.phase = .idle
  cs_undef : t.cs = .undef
  en_kept : t.en = s.en
  halted_kept : t.halted = s.halted
  pins_kept : t.pins = s.pins
  future_kept : t.future = s.future

/-- What one event does to the chip-select line (R30, R122). -/
def csAfter (l : Latch) (e : Event) : Latch :=
  match e with
  | .csLow => .low
  | .csHigh => .high
  | .enLow => l
  | .enHigh => l
  | .xchg _ .cancelled => .undef
  | .xchg _ (.ok _) => l
  | .xchg _ (.err _) => l
  | .diag _ _ => l

/-- What one event does to the enable line (R31). -/
def enAfter (l : Latch) (e : Event) : Latch :=
  match e with
  | .csLow => l
  | .csHigh => l
  | .enLow => .low
  | .enHigh => .high
  | .xchg _ _ => l
  | .diag _ _ => l

/-- The chip-select level a trace leads to, from the level reset leaves (R37). -/
def replayCs (tr : List Event) : Latch := tr.foldl csAfter .high

/-- The enable level a trace leads to, from the level reset leaves (R37). -/
def replayEn (tr : List Event) : Latch := tr.foldl enAfter .undef

/-- Where a reader of the observation stands: between two operations, inside one, after the fault, or
at something no run of the rules shows. -/
inductive Reading where
  | between
  | afterLow
  | exchanged (r : OpResult)
  | owes (r : OpResult)
  | faulted
  | wrong
deriving DecidableEq, Repr

/-- `result_of` (R123) on an exchange that was answered. -/
def answeredResult : ExchangeEnd → Option OpResult
  | .ok rx => some (okResult rx)
  | .err e => some (.busErr e)
  | .cancelled => none

/-- One more observation. An operation's observations are: chip-select Low, exchange, chip-select High,
result of the answer (R117, R123); chip-select Low, cancelled exchange (R122); one drive and `Done`
(R201, R202, R205, R206); a good sample and its level (R207, R208); a failed sample (R229). -/
def Reading.next (q : Reading) (o : Obs) : Reading :=
  match q, o with
  | .between, .event .csLow => .afterLow
  | .between, .event .csHigh => .owes .done
  | .between, .event .enLow => .owes .done
  | .between, .event .enHigh => .owes .done
  | .between, .event (.diag _ (.ok b)) => .owes (.level b)
  | .between, .event (.diag _ .ioFail) => .faulted
  | .afterLow, .event (.xchg _ .cancelled) => .between
  | .afterLow, .event (.xchg _ (.ok rx)) => .exchanged (okResult rx)
  | .afterLow, .event (.xchg _ (.err e)) => .exchanged (.busErr e)
  | .afterLow, .result r => if r = .done then .between else .wrong
  | .exchanged r, .event .csHigh => .owes r
  | .owes r, .result r' => if r' = r then .between else .wrong
  | _, _ => .wrong

/-- Where a reader stands after a whole observation. -/
def readObs (os : List Obs) : Reading := os.foldl Reading.next .between

/-- Where a reader must stand, by the block's own state: between operations when idle, after the fault
when halted, after chip-select Low while the exchange is not answered, owed the result when it is. -/
def State.expectedReading (s : State) : Reading :=
  match s.phase with
  | .idle => if s.halted then .faulted else .between
  | .selected => .afterLow
  | .transferring => .afterLow
  | .released =>
    match s.cur.answer with
    | some .ok => .owes (okResult s.rxb)
    | some (.err e) => .owes (.busErr e)
    | none => .wrong

/-- The invariant of the machine. -/
structure State.Inv (s : State) : Prop where
  /-- R39 (a). -/
  low_in_transaction : s.phase = .selected ∨ s.phase = .transferring → s.cs = .low
  /-- R39 (b). -/
  high_when_released : s.phase = .released → s.cs = .high
  /-- R39 (e). -/
  halted_idle : s.halted = true → s.phase = .idle
  /-- R24, R25, R112: until the bus answers, `TXB` holds the frame of the latched operation. -/
  frame_latched : s.phase = .selected ∨ s.phase = .transferring →
    frameOf s.cur.op = some s.txb ∧ s.cur.answer = none
  /-- R25, R126: a released transaction is that of a frame operation whose exchange was answered. -/
  answer_latched : s.phase = .released → s.cur.answer ≠ none ∧ isFrameOp s.cur.op = true
  /-- R30, R122, R40: the chip-select latch is what the events made it. -/
  cs_replayed : s.cs = replayCs s.trace
  /-- R31, R40: the enable latch is what the events made it. -/
  en_replayed : s.en = replayEn s.trace
  /-- R22, R62, R117 to R119: the observation is a sequence of whole operations. -/
  obs_read : readObs s.obs = s.expectedReading

/-- Does an observation touch the chip-select line or the bus? -/
def Obs.touchesBus : Obs → Bool
  | .event .csLow => true
  | .event .csHigh => true
  | .event (.xchg _ _) => true
  | .event .enLow => false
  | .event .enHigh => false
  | .event (.diag _ _) => false
  | .result _ => false

/-- The outside waits: nothing on the bus, no reset (R121). -/
def Pins.waits (p : Pins) : Prop := p.bus = .silent ∧ p.reset = false

end Sys2Proof.Machine
end

