-- ==== Sys2Proof/Certificates/Slice0/Obligations.lean ====
section
/-! DEFINITION. The statements for the provers. Each docstring names the rule of spec/ it formalises. -/

open Sys2Proof Sys2Proof.Machine

/-! ### Operands and frames -/

/-- R13 (and R54): `ser32` and `de32` are the little-endian byte order and inverse to each other; the
signed and the unsigned reading of a payload and their ranges; two's complement, with the source's -5. -/
def Obligations.SerialisationIsLittleEndianAndInvertible : Prop :=
  (∀ v : Word,
    ((ser32 v).p0.toNat = v.toNat % 256 ∧ (ser32 v).p1.toNat = v.toNat / 256 % 256 ∧
      (ser32 v).p2.toNat = v.toNat / 65536 % 256 ∧ (ser32 v).p3.toNat = v.toNat / 16777216) ∧
    de32 (ser32 v) = v) ∧
  (∀ p : Payload,
    (de32 p).toNat =
      p.p0.toNat + 256 * p.p1.toNat + 65536 * p.p2.toNat + 16777216 * p.p3.toNat ∧
    ser32 (de32 p) = p ∧
    signedReading p = (de32 p).toInt ∧ unsignedReading p = (de32 p).toNat ∧
    -2147483648 ≤ signedReading p ∧ signedReading p ≤ 2147483647 ∧
    unsignedReading p ≤ 4294967295) ∧
  signedPayload (-5) = ⟨0xFB#8, 0xFF#8, 0xFF#8, 0xFF#8⟩

/-- R185: the integers the host writes are read back from the payload that carries them; WRS32 and
WRU32 send the same frame exactly when the values agree modulo 2^32. -/
def Obligations.WrittenIntegersSurviveSerialisation : Prop :=
  (∀ v : Int, -2147483648 ≤ v → v ≤ 2147483647 → signedReading (signedPayload v) = v) ∧
  (∀ u : Nat, u ≤ 4294967295 → unsignedReading (unsignedPayload u) = u) ∧
  (∀ (r : Reg) (v : Int) (u : Nat), -2147483648 ≤ v → v ≤ 2147483647 → u ≤ 4294967295 →
    (frameOf (.wrs32 r v) = frameOf (.wru32 r u) ↔
      (0 ≤ v ∧ (u : Int) = v) ∨ (v < 0 ∧ (u : Int) = v + 4294967296)))

/-- R85 and R96: the command byte is the flag ORed into the address, the address and the flag are read
back from it, and a read and a write command byte never meet. -/
def Obligations.CommandByteCarriesFlagAndAddress : Prop :=
  (∀ (w : Bool) (r : Reg),
    cmdByte w r = (if w then 0x80#8 else 0x00#8) ||| (addr r).setWidth 8 ∧
    (cmdByte w r).extractLsb' 0 7 = addr r ∧ (cmdByte w r).getLsbD 7 = w) ∧
  (∀ r : Reg,
    (addr r).setWidth 8 &&& 0x80#8 = 0#8 ∧
    (∀ r' : Reg, cmdByte false r ≠ cmdByte true r') ∧
    (cmdByte false r).toNat ≤ 0x7F ∧ 0x80 ≤ (cmdByte true r).toNat ∧
    (cmdByte true r).toNat = (cmdByte false r).toNat + 0x80)

/-- R51 and R52: the register table is finite, its address function is total and injective into 0x00 to
0x73 with bit 7 clear, not every value of that range is present, and XACTUAL and VMAX have theirs. -/
def Obligations.RegisterTableMeetsItsConstraints : Prop :=
  Finite Reg ∧ Function.Injective addr ∧
  (∀ r : Reg, (addr r).toNat ≤ 0x73 ∧ ((addr r).setWidth 8 : Byte).getLsbD 7 = false) ∧
  (∃ a : Addr, a.toNat ≤ 0x73 ∧ ∀ r : Reg, addr r ≠ a) ∧
  addr .xactual = 0x21#7 ∧ addr .vmax = 0x27#7

/-- R81, R82, R86 and R87: the transmit frame of each accessor, byte by byte. -/
def Obligations.AccessorFramesHaveTheirFormats : Prop :=
  ∀ r : Reg,
    (∀ i : Instr, i = .rdraw r ∨ i = .rds32 r ∨ i = .rdu32 r →
      frameOf i = some ⟨(addr r).setWidth 8, 0#8, 0#8, 0#8, 0#8⟩) ∧
    ((addr r).setWidth 8 : Byte).getLsbD 7 = false ∧
    (∀ p : Payload, frameOf (.wrraw r p) =
      some ⟨(addr r).setWidth 8 ||| 0x80#8, p.p0, p.p1, p.p2, p.p3⟩) ∧
    (∀ (x : Int) (v : Word), v.toInt = x → frameOf (.wrs32 r x) =
      some ⟨(addr r).setWidth 8 ||| 0x80#8, v.extractLsb' 0 8, v.extractLsb' 8 8,
        v.extractLsb' 16 8, v.extractLsb' 24 8⟩) ∧
    (∀ (x : Nat) (v : Word), v.toNat = x → frameOf (.wru32 r x) =
      some ⟨(addr r).setWidth 8 ||| 0x80#8, v.extractLsb' 0 8, v.extractLsb' 8 8,
        v.extractLsb' 16 8, v.extractLsb' 24 8⟩)

/-- R83: the two transmit formats as match and mask over the 40-bit pattern; XFER's admits every frame;
every frame is a `TXW` frame or has the write flag clear; a `TXR` frame is one with the flag clear and a
zero payload. -/
def Obligations.WirePatternsClassifyFrames : Prop :=
  (WireFormat.txr.mask = 0x80FFFFFFFF#40 ∧ WireFormat.txr.pattern = 0x0000000000#40 ∧
    WireFormat.txw.mask = 0x8000000000#40 ∧ WireFormat.txw.pattern = 0x8000000000#40 ∧
    WireFormat.raw.mask = 0x0000000000#40) ∧
  (∀ f : Frame, WireFormat.raw.admits f = true ∧
    WireFormat.txw.admits f = f.b0.getLsbD 7 ∧
    (WireFormat.txr.admits f = true ↔ f.b0.getLsbD 7 = false ∧ f.payload = Payload.zero)) ∧
  (∀ (i : Instr) (f : Frame) (w : WireFormat),
    frameOf i = some f → formatOf i = some w → w.admits f = true)

/-- R90: what a frame says by itself, and that it tells only a read from a write of a register: the
three reads send one frame, and so do the three writes of one 32-bit value. -/
def Obligations.FramesReadBack : Prop :=
  (∀ f : Frame, readBack f =
    ⟨f.b0.getLsbD 7, f.b0.extractLsb' 0 7, f.b4 ++ f.b3 ++ f.b2 ++ f.b1⟩) ∧
  (∀ r : Reg, readBack (readFrame r) = ⟨false, addr r, 0#32⟩ ∧
    frameOf (.rdraw r) = some (readFrame r) ∧ frameOf (.rds32 r) = frameOf (.rdraw r) ∧
    frameOf (.rdu32 r) = frameOf (.rdraw r)) ∧
  (∀ (r : Reg) (p : Payload), readBack (writeFrame r p) = ⟨true, addr r, de32 p⟩ ∧
    frameOf (.wrraw r p) = some (writeFrame r p) ∧
    frameOf (.wrs32 r (signedReading p)) = frameOf (.wrraw r p) ∧
    frameOf (.wru32 r (unsignedReading p)) = frameOf (.wrraw r p))

/-! ### The status byte -/

/-- R140 to R149: every flag is its bit of the status byte, by the masks of the table; every flag alone
is true of its own mask; the source's example. -/
def Obligations.StatusFlagsAreTheirBits : Prop :=
  (∀ b : Byte, statusDecode b =
    ⟨b &&& 0x80#8 != 0#8, b &&& 0x40#8 != 0#8, b &&& 0x20#8 != 0#8, b &&& 0x10#8 != 0#8,
      b &&& 0x08#8 != 0#8, b &&& 0x04#8 != 0#8, b &&& 0x02#8 != 0#8, b &&& 0x01#8 != 0#8⟩ ∧
    ((statusDecode b).stopLeft = true ↔ 0x80 ≤ b.toNat)) ∧
  statusDecode 0x80#8 = ⟨true, false, false, false, false, false, false, false⟩ ∧
  statusDecode 0x40#8 = ⟨false, true, false, false, false, false, false, false⟩ ∧
  statusDecode 0x20#8 = ⟨false, false, true, false, false, false, false, false⟩ ∧
  statusDecode 0x10#8 = ⟨false, false, false, true, false, false, false, false⟩ ∧
  statusDecode 0x08#8 = ⟨false, false, false, false, true, false, false, false⟩ ∧
  statusDecode 0x04#8 = ⟨false, false, false, false, false, true, false, false⟩ ∧
  statusDecode 0x02#8 = ⟨false, false, false, false, false, false, true, false⟩ ∧
  statusDecode 0x01#8 = ⟨false, false, false, false, false, false, false, true⟩ ∧
  statusDecode 0x81#8 = ⟨true, false, false, false, false, false, false, true⟩

/-- R150: the decoder is a bijection and `status_encode`, by its formula, is its inverse. -/
def Obligations.StatusDecodeIsABijection : Prop :=
  Function.Bijective statusDecode ∧
  (∀ b : Byte, statusEncode (statusDecode b) = b) ∧
  (∀ st : Status, statusDecode (statusEncode st) = st ∧
    statusEncode st =
      (BitVec.ofBool st.stopLeft).setWidth 8 <<< 7 ||| (BitVec.ofBool st.stopRight).setWidth 8 <<< 6
      ||| (BitVec.ofBool st.positionReached).setWidth 8 <<< 5
      ||| (BitVec.ofBool st.velocityReached).setWidth 8 <<< 4
      ||| (BitVec.ofBool st.standstill).setWidth 8 <<< 3
      ||| (BitVec.ofBool st.stallFlag).setWidth 8 <<< 2
      ||| (BitVec.ofBool st.driverError).setWidth 8 <<< 1
      ||| (BitVec.ofBool st.resetFlag).setWidth 8)

/-! ### The operation map -/

/-- R92 (selectors), on words of the table with zero operands. The identifier numbered 0 is XACTUAL by
the model's numbering (log entry 2). -/
def Obligations.TableWordsDecodeToTheirOperations : Prop :=
  decodeTableWord 8 0x0 = some (.xfer 0x00#8 ⟨0#8, 0#8, 0#8, 0#8⟩) ∧
  decodeTableWord 8 0x3 = some (.rdu32 .xactual) ∧
  decodeTableWord 8 0x5 = some (.wrs32 .xactual 0) ∧
  decodeTableWord 8 0x8 = some .csrelease ∧
  decodeTableWord 8 0xA = some .enrelease ∧
  decodeTableWord 8 0xC = some .rddiag1 ∧
  decodeTableWord 8 0xD = none ∧ decodeTableWord 8 0xE = none ∧ decodeTableWord 8 0xF = none

/-- For every well-formed operation, decoding its command tuple gives it back, with every operand at
every value; the same of the tuple laid out as one word. (The layout is the model's: log entry 2.) -/
def Obligations.DecodeOfEncodeIsTheOperation : Prop :=
  ∀ i : Instr, WellFormed i →
    decode (encode i) = .ok i ∧ decodeWord (encodeWord i) = .ok i ∧
    (encode i).op = selector i ∧ (selector i).toNat ≤ 12

/-- R91 (a), R92, R21 and R53: selectors 13, 14 and 15 name no operation, whatever the other fields are.
Selectors 0 and 7 to 12, whose operations have no register, name theirs whatever stands on `reg`. Selectors
1 to 6 name theirs exactly when the number on `reg` is that of a Register identifier. The machine refuses
the rest by name. That identifiers have numbers, and which, is the model's choice (log entry 2), and so is
that unused fields are ignored in the decoder of the tuple (R21, log entry 22). -/
def Obligations.OnlyReservedSelectorsNameNoOperation : Prop :=
  (∀ c : Command, 13 ≤ c.op.toNat → decode c = .error (.reservedSelector c.op)) ∧
  (∀ c : Command, c.op.toNat = 0 ∨ (7 ≤ c.op.toNat ∧ c.op.toNat ≤ 12) →
    ∃ i, selector i = c.op ∧ ∀ code : BitVec 7, decode { c with reg := code } = .ok i) ∧
  (∀ c : Command, 1 ≤ c.op.toNat → c.op.toNat ≤ 6 →
    ((∃ i, decode c = .ok i) ↔ ∃ r, decodeReg c.reg = .ok r) ∧
    (∀ i, decode c = .ok i → selector i = c.op) ∧
    (∀ e, decode c = .error e → e = .noSuchRegister c.reg) ∧
    ((∃ r, decodeReg c.reg = .ok r) ↔ ∃ r, regCode r = c.reg)) ∧
  (∀ (s : State) (c : Command) (e : Reject), s.pins.reset = false → s.halted = false →
    s.phase = .idle → s.pins.command = some c → decode c = .error e →
    step s = .refused (refusalOf e))

/-! ### The phase machine -/

/-- R112: the accept step of every frame operation. That the operation goes on from there in the same step
of the machine is the model's merging of steps (log entry 9): the state in Selected stands between. -/
def Obligations.AcceptStepLatchesTheOperation : Prop :=
  ∀ (i : Instr) (tx : Frame) (s : State), frameOf i = some tx →
    s.phase = .idle → s.halted = false → s.cs ≠ .undef →
    exec i s = .next (settle (accept i tx s)) ∧
    accept i tx s =
      { s with
        cur := ⟨i, none⟩
        txb := tx
        cs := .low
        obs := s.obs ++ [.event .csLow]
        phase := .selected }

/-- R113: the start step changes the phase and nothing else. -/
def Obligations.StartStepHandsTheFrameOver : Prop :=
  ∀ s : State, s.phase = .selected → phaseStep s = { s with phase := .transferring }

/-- R114: the completion step on success. `TXB` after it is unspecified (R24). -/
def Obligations.CompletionOnSuccess : Prop :=
  ∀ (s : State) (rx : Frame), s.phase = .transferring → s.pins.bus = .ok rx →
    ∃ x n, phaseStep s =
      { s with
        rxb := rx
        obs := s.obs ++ [.event (.xchg s.txb (.ok rx)), .event .csHigh]
        cs := .high
        cur := ⟨s.cur.op, some .ok⟩
        phase := .released
        txb := x
        draws := n }

/-- R115: the completion step on bus error releases chip-select as on success. `TXB` and `RXB` after it
are unspecified (R24, R115). -/
def Obligations.CompletionOnBusError : Prop :=
  ∀ (s : State) (e : BusErrorT), s.phase = .transferring → s.pins.bus = .err e →
    ∃ x y n, phaseStep s =
      { s with
        obs := s.obs ++ [.event (.xchg s.txb (.err e)), .event .csHigh]
        cs := .high
        cur := ⟨s.cur.op, some (.err e)⟩
        phase := .released
        txb := x
        rxb := y
        draws := n }

/-- R116: the result step. `cur`, `TXB` and `RXB` after it are unspecified. -/
def Obligations.ResultStepDelivers : Prop :=
  ∀ s : State, s.phase = .released →
    (s.cur.answer = some .ok → ∃ x y c n, phaseStep s =
      { s with
        obs := s.obs ++
          [.result (.ok (statusDecode s.rxb.b0) ⟨s.rxb.b1, s.rxb.b2, s.rxb.b3, s.rxb.b4⟩)]
        phase := .idle
        cur := c
        txb := x
        rxb := y
        draws := n }) ∧
    (∀ e, s.cur.answer = some (.err e) → ∃ x y c n, phaseStep s =
      { s with
        obs := s.obs ++ [.result (.busErr e)]
        phase := .idle
        cur := c
        txb := x
        rxb := y
        draws := n })

/-- R122: the host's cancel step: no drive, no result, chip-select undefined; after it only CSRELEASE is
admitted; in no other phase does a CANCEL do anything. -/
def Obligations.CancelStepLeavesChipSelectUndefined : Prop :=
  (∀ s : State, s.phase = .transferring → s.pins.bus = .cancel →
    (∃ x y c n, phaseStep s =
      { s with
        obs := s.obs ++ [.event (.xchg s.txb .cancelled)]
        cs := .undef
        phase := .idle
        cur := c
        txb := x
        rxb := y
        draws := n }) ∧
    (s.halted = false → ∀ i : Instr,
      (i = .csrelease → ∃ t, exec i (phaseStep s) = .next t) ∧
      (i ≠ .csrelease → exec i (phaseStep s) = .refused .chipSelectUndefined))) ∧
  (∀ s : State, s.phase ≠ .transferring →
    phaseStep { s with pins := { s.pins with bus := .cancel } } =
      { phaseStep s with pins := { s.pins with bus := .cancel } })

/-- R126: the list of phase transitions is complete; line operations leave the phase. -/
def Obligations.PhaseTransitionsAreTheList : Prop :=
  (∀ s : State, (phaseStep s).phase = s.phase ∨
    (s.phase, (phaseStep s).phase) ∈
      [(Phase.selected, Phase.transferring), (.transferring, .released), (.released, .idle),
        (.transferring, .idle)]) ∧
  (∀ s : State, s.phase = .idle → phaseStep s = s) ∧
  (∀ (i : Instr) (tx : Frame) (s : State), (accept i tx s).phase = .selected) ∧
  (∀ (i : Instr) (s t : State), frameOf i = none → exec i s = .next t →
    s.phase = .idle ∧ t.phase = .idle)

/-- R121: what the block does without being waited for ends in `Idle` or in `Transferring` with a
silent bus, where it has no step of its own. -/
def Obligations.BlockStopsOnlyIdleOrWaiting : Prop :=
  ∀ s : State, s.Inv →
    phaseStep (settle s) = settle s ∧
    ((settle s).phase = .idle ∨ ((settle s).phase = .transferring ∧ s.pins.bus = .silent))

/-! ### The frame operations -/

/-- R111: XFER sends the host's command byte and payload unchanged, for every value of them, and
delivers the decoded status with the four response bytes, or the bus error, with chip-select High at the
end; while the bus is silent it waits; the host may cancel it there. -/
def Obligations.XferSendsItsBytesAndDeliversTheAnswer : Prop :=
  ∀ (c : Byte) (p : Payload) (s : State), s.Ready →
    selector (.xfer c p) = 0#4 ∧
    (∀ rx, s.pins.bus = .ok rx → ∃ t, exec (.xfer c p) s = .next t ∧
      FrameOpDone s t ⟨c, p.p0, p.p1, p.p2, p.p3⟩ (.ok rx)
        (.ok (statusDecode rx.b0) ⟨rx.b1, rx.b2, rx.b3, rx.b4⟩)) ∧
    (∀ e, s.pins.bus = .err e → ∃ t, exec (.xfer c p) s = .next t ∧
      FrameOpDone s t ⟨c, p.p0, p.p1, p.p2, p.p3⟩ (.err e) (.busErr e)) ∧
    (s.pins.bus = .silent → ∃ t, exec (.xfer c p) s = .next t ∧
      FrameOpWaits s t (.xfer c p) ⟨c, p.p0, p.p1, p.p2, p.p3⟩) ∧
    (s.pins.bus = .cancel → ∃ t, exec (.xfer c p) s = .next t ∧
      FrameOpCancelled s t ⟨c, p.p0, p.p1, p.p2, p.p3⟩)

/-- R160 to R163: RDRAW, RDS32 and RDU32 send the read frame of their register once and deliver status
and payload, read raw, signed and unsigned, or the bus error unchanged. -/
def Obligations.ReadsSendTheReadFrameAndDeliverTheAnswer : Prop :=
  ∀ (r : Reg) (i : Instr) (s : State), i = .rdraw r ∨ i = .rds32 r ∨ i = .rdu32 r → s.Ready →
    (selector (.rdraw r) = 1#4 ∧ selector (.rds32 r) = 2#4 ∧ selector (.rdu32 r) = 3#4) ∧
    (∀ rx, s.pins.bus = .ok rx → ∃ t res, exec i s = .next t ∧
      FrameOpDone s t ⟨(addr r).setWidth 8, 0#8, 0#8, 0#8, 0#8⟩ (.ok rx) res ∧
      res = .ok (statusDecode rx.b0) ⟨rx.b1, rx.b2, rx.b3, rx.b4⟩ ∧
      res.signed? = some (rx.b4 ++ rx.b3 ++ rx.b2 ++ rx.b1).toInt ∧
      res.unsigned? = some (rx.b1.toNat + 256 * rx.b2.toNat + 65536 * rx.b3.toNat
        + 16777216 * rx.b4.toNat)) ∧
    (∀ e, s.pins.bus = .err e → ∃ t, exec i s = .next t ∧
      FrameOpDone s t ⟨(addr r).setWidth 8, 0#8, 0#8, 0#8, 0#8⟩ (.err e) (.busErr e))

/-- R180 to R183: WRRAW, WRS32 and WRU32 send the write frame of their register and 32 bits once and
deliver status and payload, or the bus error unchanged. `v` is the vector with `s(v) = V`, or with
`u(v) = U`. -/
def Obligations.WritesSendTheWriteFrameAndDeliverTheAnswer : Prop :=
  ∀ (r : Reg) (v : Word) (i : Instr) (s : State),
    i = .wrraw r (ser32 v) ∨ i = .wrs32 r v.toInt ∨ i = .wru32 r v.toNat → s.Ready →
    (selector (.wrs32 r v.toInt) = 5#4 ∧ selector (.wru32 r v.toNat) = 6#4) ∧
    (∀ rx, s.pins.bus = .ok rx → ∃ t, exec i s = .next t ∧
      FrameOpDone s t ⟨(addr r).setWidth 8 ||| 0x80#8, v.extractLsb' 0 8, v.extractLsb' 8 8,
          v.extractLsb' 16 8, v.extractLsb' 24 8⟩ (.ok rx)
        (.ok (statusDecode rx.b0) ⟨rx.b1, rx.b2, rx.b3, rx.b4⟩)) ∧
    (∀ e, s.pins.bus = .err e → ∃ t, exec i s = .next t ∧
      FrameOpDone s t ⟨(addr r).setWidth 8 ||| 0x80#8, v.extractLsb' 0 8, v.extractLsb' 8 8,
          v.extractLsb' 16 8, v.extractLsb' 24 8⟩ (.err e) (.busErr e))

/-- R181: WRRAW sends its four bytes in the order given, whatever they are, and delivers the answer. -/
def Obligations.WrrawSendsItsBytesVerbatim : Prop :=
  ∀ (r : Reg) (p : Payload) (s : State), s.Ready →
    selector (.wrraw r p) = 4#4 ∧
    (∀ rx, s.pins.bus = .ok rx → ∃ t, exec (.wrraw r p) s = .next t ∧
      FrameOpDone s t ⟨(addr r).setWidth 8 ||| 0x80#8, p.p0, p.p1, p.p2, p.p3⟩ (.ok rx)
        (.ok (statusDecode rx.b0) ⟨rx.b1, rx.b2, rx.b3, rx.b4⟩)) ∧
    (∀ e, s.pins.bus = .err e → ∃ t, exec (.wrraw r p) s = .next t ∧
      FrameOpDone s t ⟨(addr r).setWidth 8 ||| 0x80#8, p.p0, p.p1, p.p2, p.p3⟩ (.err e) (.busErr e))

/-- R123: the function form of every frame operation that is not cancelled, started with `cs = High`:
the trace grows by exactly three events, the results by exactly `result_of`. -/
def Obligations.FrameOperationsHaveTheirFunctionForm : Prop :=
  ∀ (i : Instr) (tx : Frame) (s : State) (ans : ExchangeEnd) (res : OpResult),
    frameOf i = some tx → s.halted = false → s.phase = .idle → s.cs = .high →
    ((∃ rx, s.pins.bus = .ok rx ∧ ans = .ok rx ∧
        res = .ok (statusDecode rx.b0) ⟨rx.b1, rx.b2, rx.b3, rx.b4⟩) ∨
      (∃ e, s.pins.bus = .err e ∧ ans = .err e ∧ res = .busErr e)) →
    ∃ t, exec i s = .next t ∧
      t.trace = s.trace ++ [.csLow, .xchg tx ans, .csHigh] ∧ t.results = s.results ++ [res] ∧
      t.phase = .idle ∧ t.cs = .high ∧ t.en = s.en ∧ t.halted = s.halted

/-- R121 and R112: while the bus is silent every frame operation waits in `Transferring` with
chip-select Low and no result. -/
def Obligations.SilentBusLeavesTheOperationWaiting : Prop :=
  ∀ (i : Instr) (tx : Frame) (s : State), frameOf i = some tx → s.Ready → s.pins.bus = .silent →
    ∃ t, exec i s = .next t ∧ FrameOpWaits s t i tx

/-- R122 and R119: a frame operation the host cancels drives chip-select once, delivers nothing and
leaves chip-select undefined. -/
def Obligations.CancelledOperationDeliversNothing : Prop :=
  ∀ (i : Instr) (tx : Frame) (s : State), frameOf i = some tx → s.Ready → s.pins.bus = .cancel →
    ∃ t, exec i s = .next t ∧ FrameOpCancelled s t tx ∧ t.results = s.results

/-- R164: the three read operations have one outcome but for the operation `cur` names while they wait;
the two readings of a payload differ by the sign bit. -/
def Obligations.ReadsDifferOnlyInTheReading : Prop :=
  (∀ (r : Reg) (s : State) (x : Latched),
    mapNext (fun t => { t with cur := x }) (exec (.rds32 r) s) =
      mapNext (fun t => { t with cur := x }) (exec (.rdraw r) s) ∧
    mapNext (fun t => { t with cur := x }) (exec (.rdu32 r) s) =
      mapNext (fun t => { t with cur := x }) (exec (.rdraw r) s)) ∧
  (∀ p : Payload, (unsignedReading p : Int) - signedReading p =
    if p.p3.getLsbD 7 then 4294967296 else 0)

/-- R95: every accessor is its raw accessor with a conversion, and every raw accessor is an XFER: one
outcome, but for the operation `cur` names while they wait. -/
def Obligations.AccessorsAreDerivedFromXfer : Prop :=
  ∀ (r : Reg) (s : State) (x : Latched),
    mapNext (fun t => { t with cur := x }) (exec (.rdraw r) s) =
      mapNext (fun t => { t with cur := x }) (exec (.xfer (cmdByte false r) ⟨0#8, 0#8, 0#8, 0#8⟩) s) ∧
    mapNext (fun t => { t with cur := x }) (exec (.rds32 r) s) =
      mapNext (fun t => { t with cur := x }) (exec (.rdraw r) s) ∧
    mapNext (fun t => { t with cur := x }) (exec (.rdu32 r) s) =
      mapNext (fun t => { t with cur := x }) (exec (.rdraw r) s) ∧
    (∀ p : Payload,
      mapNext (fun t => { t with cur := x }) (exec (.wrraw r p) s) =
        mapNext (fun t => { t with cur := x }) (exec (.xfer (cmdByte true r) p) s)) ∧
    (∀ v : Word,
      mapNext (fun t => { t with cur := x }) (exec (.wrs32 r v.toInt) s) =
        mapNext (fun t => { t with cur := x }) (exec (.wrraw r (ser32 v)) s) ∧
      mapNext (fun t => { t with cur := x }) (exec (.wru32 r v.toNat) s) =
        mapNext (fun t => { t with cur := x }) (exec (.wrraw r (ser32 v)) s))

/-- R12: the memory shorthands are one transaction each, with the address in bits 6:0 of the command
byte and the write flag in bit 7. -/
def Obligations.MemoryShorthandsAreTransactions : Prop :=
  ∀ (a : Addr) (p : Payload) (s : State) (rx : Frame), s.Ready → s.pins.bus = .ok rx →
    (∃ t, memRead a s = .next t ∧
      FrameOpDone s t ⟨0#1 ++ a, 0#8, 0#8, 0#8, 0#8⟩ (.ok rx)
        (.ok (statusDecode rx.b0) ⟨rx.b1, rx.b2, rx.b3, rx.b4⟩)) ∧
    (∃ t, memWrite a p s = .next t ∧
      FrameOpDone s t ⟨1#1 ++ a, p.p0, p.p1, p.p2, p.p3⟩ (.ok rx)
        (.ok (statusDecode rx.b0) ⟨rx.b1, rx.b2, rx.b3, rx.b4⟩))

/-! ### The line operations -/

/-- R201 (and R125): CSASSERT drives chip-select Low, from High and from Low alike, starts no exchange
and changes nothing else; a frame operation after it ends with chip-select High. -/
def Obligations.CsassertDrivesChipSelectLow : Prop :=
  selector .csassert = 7#4 ∧ frameOf .csassert = none ∧
  ∀ s : State, s.Ready →
    exec .csassert s =
      .next { s with cs := .low, obs := s.obs ++ [.event .csLow, .result .done] } ∧
    (∀ (i : Instr) (tx rx : Frame), frameOf i = some tx → s.pins.bus = .ok rx →
      ∃ t, exec i { s with cs := .low, obs := s.obs ++ [.event .csLow, .result .done] } = .next t ∧
        t.cs = .high)

/-- R202 (and R233): CSRELEASE drives chip-select High, also when it is undefined, where no other
operation is admitted, and changes nothing else; every operation is admitted after it. -/
def Obligations.CsreleaseDrivesChipSelectHigh : Prop :=
  selector .csrelease = 8#4 ∧ frameOf .csrelease = none ∧
  ∀ s : State, s.halted = false → s.phase = .idle →
    exec .csrelease s =
      .next { s with cs := .high, obs := s.obs ++ [.event .csHigh, .result .done] } ∧
    (s.cs = .undef → ∀ i : Instr, i ≠ .csrelease → exec i s = .refused .chipSelectUndefined) ∧
    (∀ i : Instr, ∃ t,
      exec i { s with cs := .high, obs := s.obs ++ [.event .csHigh, .result .done] } = .next t)

/-- R205, R206 and R204: ENASSERT drives the enable line to `EN_ASSERT_LEVEL` and ENRELEASE to the other
level, from every value of `en`; nothing else changes. -/
def Obligations.EnableOperationsDriveTheirLevels : Prop :=
  selector .enassert = 9#4 ∧ frameOf .enassert = none ∧
  selector .enrelease = 10#4 ∧ frameOf .enrelease = none ∧
  ∀ s : State, s.Ready →
    exec .enassert s =
      .next { s with
        en := if Config.enAssertLevel = .low then .low else .high
        obs := s.obs ++
          [.event (if Config.enAssertLevel = .low then .enLow else .enHigh), .result .done] } ∧
    exec .enrelease s =
      .next { s with
        en := if Config.enAssertLevel = .low then .high else .low
        obs := s.obs ++
          [.event (if Config.enAssertLevel = .low then .enHigh else .enLow), .result .done] }

/-- R207 and R208: RDDIAG0 and RDDIAG1 sample their own line and deliver its raw level; a failed sample
sets `halted` and delivers nothing; nothing else changes. -/
def Obligations.DiagnosticReadsDeliverTheLevel : Prop :=
  selector .rddiag0 = 11#4 ∧ frameOf .rddiag0 = none ∧
  selector .rddiag1 = 12#4 ∧ frameOf .rddiag1 = none ∧
  ∀ s : State, s.Ready →
    (∀ b, s.pins.diag0 = .ok b → exec .rddiag0 s =
      .next { s with obs := s.obs ++ [.event (.diag .diag0 (.ok b)), .result (.level b)] }) ∧
    (∀ b, s.pins.diag1 = .ok b → exec .rddiag1 s =
      .next { s with obs := s.obs ++ [.event (.diag .diag1 (.ok b)), .result (.level b)] }) ∧
    (s.pins.diag0 = .ioFail → exec .rddiag0 s =
      .next { s with halted := true, obs := s.obs ++ [.event (.diag .diag0 .ioFail)] }) ∧
    (s.pins.diag1 = .ioFail → exec .rddiag1 s =
      .next { s with halted := true, obs := s.obs ++ [.event (.diag .diag1 .ioFail)] })

/-- R229, R222 and R232: a failed sample halts the block, delivers no result and keeps the lines; after
it no operation and no step is taken until reset. -/
def Obligations.FatalIoHaltsTheBlock : Prop :=
  ∀ s : State, s.Ready →
    (s.pins.diag0 = .ioFail → exec .rddiag0 s =
      .next { s with halted := true, obs := s.obs ++ [.event (.diag .diag0 .ioFail)] }) ∧
    (s.pins.diag1 = .ioFail → exec .rddiag1 s =
      .next { s with halted := true, obs := s.obs ++ [.event (.diag .diag1 .ioFail)] }) ∧
    (∀ t : State, t.halted = true →
      (∀ i : Instr, exec i t = .fault .halted) ∧
      (t.pins.reset = false → step t = .fault .halted) ∧
      (t.pins.reset = true → ∃ u, step t = .next u ∧ u.halted = false))

/-! ### Admission -/

/-- R124 (and R120): what happens when a precondition fails: nothing is accepted while the block is busy
(whatever the host presents then, the step is the same), no operation and no step while it is halted, and
only CSRELEASE while chip-select is undefined; no other precondition exists. -/
def Obligations.FailedPreconditionsAdmitNothing : Prop :=
  (∀ (s : State) (c : Option Command), s.phase ≠ .idle →
    step { s with pins := { s.pins with command := c } } = step s) ∧
  (∀ (i : Instr) (s : State), s.halted = false → s.phase ≠ .idle → exec i s = .refused .portBusy) ∧
  (∀ (i : Instr) (s : State), s.halted = true → exec i s = .fault .halted ∧
    (s.pins.reset = false → step s = .fault .halted)) ∧
  (∀ (i : Instr) (s : State), s.halted = false → s.phase = .idle → s.cs = .undef →
    i ≠ .csrelease → exec i s = .refused .chipSelectUndefined) ∧
  (∀ s : State, s.halted = false → s.phase = .idle → ∃ t, exec .csrelease s = .next t) ∧
  (∀ (i : Instr) (s : State), s.halted = false → s.phase = .idle → s.cs ≠ .undef →
    ∃ t, exec i s = .next t)

/-- R31: the enable latch is written by ENASSERT and ENRELEASE and by no other operation, and no step
but a reset or one of these changes it. -/
def Obligations.EnableIsWrittenOnlyByItsOperations : Prop :=
  (∀ (i : Instr) (s t : State), exec i s = .next t → i ≠ .enassert → i ≠ .enrelease →
    t.en = s.en) ∧
  (∀ s t : State, step s = .next t → s.pins.reset = false →
    (∀ i, fetch s = some (.ok i) → i ≠ .enassert ∧ i ≠ .enrelease) → t.en = s.en)

/-- R26: only a failed sample of a diagnostic line sets `halted`, and no step but a reset clears it. -/
def Obligations.OnlyFatalIoHalts : Prop :=
  (∀ s t : State, step s = .next t → t.halted = true →
    s.pins.reset = false ∧ s.phase = .idle ∧
      ((fetch s = some (.ok .rddiag0) ∧ s.pins.diag0 = .ioFail) ∨
       (fetch s = some (.ok .rddiag1) ∧ s.pins.diag1 = .ioFail))) ∧
  (∀ s t : State, step s = .next t → s.halted = true → s.pins.reset = true)

/-- R210 and R240: no interlock with the enable line: every operation but ENASSERT and ENRELEASE does
the same whatever `en` is, and keeps it. -/
def Obligations.EnableLineInterlocksNothing : Prop :=
  ∀ (i : Instr) (s : State) (l : Latch), i ≠ .enassert → i ≠ .enrelease →
    exec i { s with en := l } = mapNext (fun t => { t with en := l }) (exec i s)

/-- R24, R38 and R63: what an operation does depends on `cs`, `en`, `halted` and the ports alone: the
frame registers, the latched operation and everything observed before (so no register value read or
written earlier) have no part in it. -/
def Obligations.NothingButLinesSurvivesAnOperation : Prop :=
  ∀ (i : Instr) (s s' t : State),
    s'.phase = s.phase → s'.halted = s.halted → s'.cs = s.cs → s'.en = s.en →
    s'.pins = s.pins → exec i s = .next t →
    ∃ t' new, exec i s' = .next t' ∧ t.obs = s.obs ++ new ∧ t'.obs = s'.obs ++ new ∧
      t'.phase = t.phase ∧ t'.halted = t.halted ∧ t'.cs = t.cs ∧ t'.en = t.en ∧
      (t.phase = .transferring → t'.txb = t.txb ∧ t'.cur = t.cur)

/-! ### Steps and runs -/

/-- A step runs the decoded operation: when the command on the port decodes to `i` and no reset is
applied, the step of an idle block is `exec i`, after which the outside moves on. -/
def Obligations.StepRunsTheDecodedOperation : Prop :=
  ∀ (s : State) (c : Command) (i : Instr),
    s.pins.reset = false → s.halted = false → s.phase = .idle → s.pins.command = some c →
    decode c = .ok i →
    step s = mapNext advance (exec i s) ∧
    (∀ p ps, s.future = p :: ps → ∀ t, exec i s = .next t →
      ∃ u, step s = .next u ∧ u.pins = p ∧ u.future = ps ∧ u.obs = t.obs ∧ u.phase = t.phase ∧
        u.cs = t.cs ∧ u.en = t.en ∧ u.halted = t.halted ∧ u.txb = t.txb ∧ u.rxb = t.rxb ∧
        u.cur = t.cur)

/-- R260 and R37: reset in any state, also while an exchange is in flight or the block is halted. -/
def Obligations.ResetEventInAnyState : Prop :=
  ∀ s : State, s.pins.reset = true →
    ∃ t, step s = .next t ∧ t.phase = .idle ∧ t.cs = .high ∧ t.en = .undef ∧ t.halted = false ∧
      t.trace = [] ∧ t.results = []

/-- R37: the state after reset, where the spec gives a value. -/
def Obligations.ResetStateHasTheSpecValues : Prop :=
  State.reset.phase = .idle ∧ State.reset.cs = .high ∧ State.reset.en = .undef ∧
  State.reset.halted = false ∧ State.reset.trace = [] ∧ State.reset.results = [] ∧
  State.reset.Ready

/-- R121 and R272: a bus that never answers leaves the block in `Transferring` with chip-select Low for
ever, with no event and no result: no number of steps ends the wait. -/
def Obligations.SilentBusHangsForEver : Prop :=
  ∀ (ps : List Pins) (s : State), s.phase = .transferring → s.halted = false → s.pins.waits →
    s.future = ps → (∀ p ∈ ps, p.waits) → ∀ n : Nat,
      ∃ t, core.run n s = .next t ∧ t.phase = .transferring ∧ t.cs = s.cs ∧ t.en = s.en ∧
        t.obs = s.obs ∧ t.txb = s.txb ∧ t.cur = s.cur ∧ t.future = ps.drop n

/-- R111, R112 to R116 and R123 over any delay: a frame operation presented to a ready block runs to its
end when the bus answers, `Ok` or `Err`, after any number of silent steps: the outside sees chip-select
Low, the one exchange, chip-select High and the result, and nothing else. The number of steps counts the
turns of the outside, which are the model's (log entry 4), and rests on the merging of steps (log entry
9). -/
def Obligations.FrameOperationsEndAfterAnyDelay : Prop :=
  ∀ (i : Instr) (tx : Frame) (ans : ExchangeEnd) (res : OpResult) (c : Command) (s : State)
    (wait rest : List Pins) (last : Pins),
    frameOf i = some tx → s.Ready → decode c = .ok i → s.pins.command = some c → s.pins.waits →
    s.future = wait ++ last :: rest → (∀ p ∈ wait, p.waits) → last.reset = false →
    ((∃ rx, last.bus = .ok rx ∧ ans = .ok rx ∧
        res = .ok (statusDecode rx.b0) ⟨rx.b1, rx.b2, rx.b3, rx.b4⟩) ∨
      (∃ e, last.bus = .err e ∧ ans = .err e ∧ res = .busErr e)) →
    ∃ t, core.run (wait.length + 2) s = .next t ∧ t.Ready ∧ t.cs = .high ∧ t.en = s.en ∧
      t.obs = s.obs ++ [.event .csLow, .event (.xchg tx ans), .event .csHigh, .result res]

/-- R40 and R62: a step that is no reset only adds to what was observed. -/
def Obligations.StepsOnlyAppendObservations : Prop :=
  ∀ s t : State, step s = .next t → s.pins.reset = false →
    ∃ new, t.obs = s.obs ++ new ∧ new.length ≤ 4

/-! ### Invariants -/

/-- The invariant holds after reset. -/
def Obligations.ResetMeetsTheInvariant : Prop := State.reset.Inv

/-- R39 (a), (b), (e), and with them that the latches are what the events made them and that the
observation is a sequence of whole operations (R22, R62, R117 to R119): every step keeps it. -/
def Obligations.StepKeepsTheInvariant : Prop :=
  ∀ s t : State, s.Inv → step s = .next t → t.Inv

/-- The same of the spec's own step relation on the phases, at its own grain: the accept step (R112) and
every later step (R113 to R116, R122), which are all the transitions of R126. -/
def Obligations.PhaseStepKeepsTheInvariant : Prop :=
  (∀ (i : Instr) (tx : Frame) (s : State), s.Inv → s.Ready → frameOf i = some tx →
    (accept i tx s).Inv) ∧
  (∀ s : State, s.Inv → s.halted = false → (phaseStep s).Inv)

/-- R39 (c): chip-select is Low in `Idle` only after a CSASSERT that no CSRELEASE and no frame operation
followed. -/
def Obligations.LowWhileIdleIsAManualAssert : Prop :=
  ∀ s : State, s.Inv → s.phase = .idle → s.cs = .low →
    ∃ before after, s.obs = before ++ [.event .csLow, .result .done] ++ after ∧
      ∀ o ∈ after, o.touchesBus = false

/-- R39 (d): chip-select is undefined only after a CANCEL that no CSRELEASE followed. -/
def Obligations.UndefinedChipSelectIsACancel : Prop :=
  ∀ s : State, s.Inv → s.cs = .undef →
    ∃ before after tx, s.obs = before ++ [.event .csLow, .event (.xchg tx .cancelled)] ++ after ∧
      ∀ o ∈ after, o.touchesBus = false

/-- R117: in every state of the invariant an answered exchange stands directly after a chip-select Low
and directly before a chip-select High, and its result directly after that, unless the block has yet to
deliver it. -/
def Obligations.EveryExchangeIsInsideAChipSelectInterval : Prop :=
  ∀ (s : State) (before after : List Obs) (tx : Frame) (ans : ExchangeEnd) (r : OpResult),
    s.Inv → s.obs = before ++ .event (.xchg tx ans) :: after → answeredResult ans = some r →
    (∃ b, before = b ++ [.event .csLow]) ∧
    (∃ a, after = .event .csHigh :: a ∧
      ((a = [] ∧ s.phase = .released) ∨ ∃ a', a = .result r :: a'))
end

