-- ==== Sys2Proof/Laws/State.lean ====
section
/-! SUPPORT. The small lemmas of the state operations: one per field and update, and what the event trace
and the results are after one. -/

namespace Sys2Proof.Machine

@[simp] theorem emit_phase (e : Event) (s : State) : (s.emit e).phase = s.phase := rfl
@[simp] theorem emit_txb (e : Event) (s : State) : (s.emit e).txb = s.txb := rfl
@[simp] theorem emit_rxb (e : Event) (s : State) : (s.emit e).rxb = s.rxb := rfl
@[simp] theorem emit_cur (e : Event) (s : State) : (s.emit e).cur = s.cur := rfl
@[simp] theorem emit_halted (e : Event) (s : State) : (s.emit e).halted = s.halted := rfl
@[simp] theorem emit_cs (e : Event) (s : State) : (s.emit e).cs = s.cs := rfl
@[simp] theorem emit_en (e : Event) (s : State) : (s.emit e).en = s.en := rfl
@[simp] theorem emit_obs (e : Event) (s : State) : (s.emit e).obs = s.obs ++ [.event e] := rfl
@[simp] theorem emit_pins (e : Event) (s : State) : (s.emit e).pins = s.pins := rfl
@[simp] theorem emit_future (e : Event) (s : State) : (s.emit e).future = s.future := rfl
@[simp] theorem emit_draws (e : Event) (s : State) : (s.emit e).draws = s.draws := rfl

@[simp] theorem deliver_phase (r : OpResult) (s : State) : (s.deliver r).phase = s.phase := rfl
@[simp] theorem deliver_txb (r : OpResult) (s : State) : (s.deliver r).txb = s.txb := rfl
@[simp] theorem deliver_rxb (r : OpResult) (s : State) : (s.deliver r).rxb = s.rxb := rfl
@[simp] theorem deliver_cur (r : OpResult) (s : State) : (s.deliver r).cur = s.cur := rfl
@[simp] theorem deliver_halted (r : OpResult) (s : State) : (s.deliver r).halted = s.halted := rfl
@[simp] theorem deliver_cs (r : OpResult) (s : State) : (s.deliver r).cs = s.cs := rfl
@[simp] theorem deliver_en (r : OpResult) (s : State) : (s.deliver r).en = s.en := rfl
@[simp] theorem deliver_obs (r : OpResult) (s : State) : (s.deliver r).obs = s.obs ++ [.result r] := rfl
@[simp] theorem deliver_pins (r : OpResult) (s : State) : (s.deliver r).pins = s.pins := rfl
@[simp] theorem deliver_future (r : OpResult) (s : State) : (s.deliver r).future = s.future := rfl
@[simp] theorem deliver_draws (r : OpResult) (s : State) : (s.deliver r).draws = s.draws := rfl

@[simp] theorem driveCs_phase (l : Level) (s : State) : (driveCs l s).phase = s.phase := rfl
@[simp] theorem driveCs_txb (l : Level) (s : State) : (driveCs l s).txb = s.txb := rfl
@[simp] theorem driveCs_rxb (l : Level) (s : State) : (driveCs l s).rxb = s.rxb := rfl
@[simp] theorem driveCs_cur (l : Level) (s : State) : (driveCs l s).cur = s.cur := rfl
@[simp] theorem driveCs_halted (l : Level) (s : State) : (driveCs l s).halted = s.halted := rfl
@[simp] theorem driveCs_cs (l : Level) (s : State) : (driveCs l s).cs = latchOf l := rfl
@[simp] theorem driveCs_en (l : Level) (s : State) : (driveCs l s).en = s.en := rfl
@[simp] theorem driveCs_obs (l : Level) (s : State) : (driveCs l s).obs = s.obs ++ [.event (csEvent l)] := rfl
@[simp] theorem driveCs_pins (l : Level) (s : State) : (driveCs l s).pins = s.pins := rfl
@[simp] theorem driveCs_future (l : Level) (s : State) : (driveCs l s).future = s.future := rfl
@[simp] theorem driveCs_draws (l : Level) (s : State) : (driveCs l s).draws = s.draws := rfl

@[simp] theorem driveEn_phase (l : Level) (s : State) : (driveEn l s).phase = s.phase := rfl
@[simp] theorem driveEn_txb (l : Level) (s : State) : (driveEn l s).txb = s.txb := rfl
@[simp] theorem driveEn_rxb (l : Level) (s : State) : (driveEn l s).rxb = s.rxb := rfl
@[simp] theorem driveEn_cur (l : Level) (s : State) : (driveEn l s).cur = s.cur := rfl
@[simp] theorem driveEn_halted (l : Level) (s : State) : (driveEn l s).halted = s.halted := rfl
@[simp] theorem driveEn_cs (l : Level) (s : State) : (driveEn l s).cs = s.cs := rfl
@[simp] theorem driveEn_en (l : Level) (s : State) : (driveEn l s).en = latchOf l := rfl
@[simp] theorem driveEn_obs (l : Level) (s : State) : (driveEn l s).obs = s.obs ++ [.event (enEvent l)] := rfl
@[simp] theorem driveEn_pins (l : Level) (s : State) : (driveEn l s).pins = s.pins := rfl
@[simp] theorem driveEn_future (l : Level) (s : State) : (driveEn l s).future = s.future := rfl
@[simp] theorem driveEn_draws (l : Level) (s : State) : (driveEn l s).draws = s.draws := rfl

@[simp] theorem forgetTxb_phase (s : State) : (forgetTxb s).phase = s.phase := rfl
@[simp] theorem forgetTxb_txb (s : State) : (forgetTxb s).txb = Config.freeFrame s.draws := rfl
@[simp] theorem forgetTxb_rxb (s : State) : (forgetTxb s).rxb = s.rxb := rfl
@[simp] theorem forgetTxb_cur (s : State) : (forgetTxb s).cur = s.cur := rfl
@[simp] theorem forgetTxb_halted (s : State) : (forgetTxb s).halted = s.halted := rfl
@[simp] theorem forgetTxb_cs (s : State) : (forgetTxb s).cs = s.cs := rfl
@[simp] theorem forgetTxb_en (s : State) : (forgetTxb s).en = s.en := rfl
@[simp] theorem forgetTxb_obs (s : State) : (forgetTxb s).obs = s.obs := rfl
@[simp] theorem forgetTxb_pins (s : State) : (forgetTxb s).pins = s.pins := rfl
@[simp] theorem forgetTxb_future (s : State) : (forgetTxb s).future = s.future := rfl
@[simp] theorem forgetTxb_draws (s : State) : (forgetTxb s).draws = s.draws + 1 := rfl

@[simp] theorem forgetRxb_phase (s : State) : (forgetRxb s).phase = s.phase := rfl
@[simp] theorem forgetRxb_txb (s : State) : (forgetRxb s).txb = s.txb := rfl
@[simp] theorem forgetRxb_rxb (s : State) : (forgetRxb s).rxb = Config.freeFrame s.draws := rfl
@[simp] theorem forgetRxb_cur (s : State) : (forgetRxb s).cur = s.cur := rfl
@[simp] theorem forgetRxb_halted (s : State) : (forgetRxb s).halted = s.halted := rfl
@[simp] theorem forgetRxb_cs (s : State) : (forgetRxb s).cs = s.cs := rfl
@[simp] theorem forgetRxb_en (s : State) : (forgetRxb s).en = s.en := rfl
@[simp] theorem forgetRxb_obs (s : State) : (forgetRxb s).obs = s.obs := rfl
@[simp] theorem forgetRxb_pins (s : State) : (forgetRxb s).pins = s.pins := rfl
@[simp] theorem forgetRxb_future (s : State) : (forgetRxb s).future = s.future := rfl
@[simp] theorem forgetRxb_draws (s : State) : (forgetRxb s).draws = s.draws + 1 := rfl

@[simp] theorem forgetCur_phase (s : State) : (forgetCur s).phase = s.phase := rfl
@[simp] theorem forgetCur_txb (s : State) : (forgetCur s).txb = s.txb := rfl
@[simp] theorem forgetCur_rxb (s : State) : (forgetCur s).rxb = s.rxb := rfl
@[simp] theorem forgetCur_cur (s : State) : (forgetCur s).cur = Config.freeLatched s.draws := rfl
@[simp] theorem forgetCur_halted (s : State) : (forgetCur s).halted = s.halted := rfl
@[simp] theorem forgetCur_cs (s : State) : (forgetCur s).cs = s.cs := rfl
@[simp] theorem forgetCur_en (s : State) : (forgetCur s).en = s.en := rfl
@[simp] theorem forgetCur_obs (s : State) : (forgetCur s).obs = s.obs := rfl
@[simp] theorem forgetCur_pins (s : State) : (forgetCur s).pins = s.pins := rfl
@[simp] theorem forgetCur_future (s : State) : (forgetCur s).future = s.future := rfl
@[simp] theorem forgetCur_draws (s : State) : (forgetCur s).draws = s.draws + 1 := rfl

@[simp] theorem forgetTransient_phase (s : State) : (forgetTransient s).phase = s.phase := rfl
@[simp] theorem forgetTransient_txb (s : State) : (forgetTransient s).txb = Config.freeFrame (s.draws + 1) := rfl
@[simp] theorem forgetTransient_rxb (s : State) : (forgetTransient s).rxb = Config.freeFrame (s.draws + 1 + 1) := rfl
@[simp] theorem forgetTransient_cur (s : State) : (forgetTransient s).cur = Config.freeLatched s.draws := rfl
@[simp] theorem forgetTransient_halted (s : State) : (forgetTransient s).halted = s.halted := rfl
@[simp] theorem forgetTransient_cs (s : State) : (forgetTransient s).cs = s.cs := rfl
@[simp] theorem forgetTransient_en (s : State) : (forgetTransient s).en = s.en := rfl
@[simp] theorem forgetTransient_obs (s : State) : (forgetTransient s).obs = s.obs := rfl
@[simp] theorem forgetTransient_pins (s : State) : (forgetTransient s).pins = s.pins := rfl
@[simp] theorem forgetTransient_future (s : State) : (forgetTransient s).future = s.future := rfl
@[simp] theorem forgetTransient_draws (s : State) : (forgetTransient s).draws = s.draws + 1 + 1 + 1 := rfl

@[simp] theorem raiseBusError_phase (e : BusErrorT) (s : State) : (raiseBusError e s).phase = s.phase := rfl
@[simp] theorem raiseBusError_txb (e : BusErrorT) (s : State) : (raiseBusError e s).txb = s.txb := rfl
@[simp] theorem raiseBusError_rxb (e : BusErrorT) (s : State) : (raiseBusError e s).rxb = s.rxb := rfl
@[simp] theorem raiseBusError_cur (e : BusErrorT) (s : State) : (raiseBusError e s).cur = s.cur := rfl
@[simp] theorem raiseBusError_halted (e : BusErrorT) (s : State) : (raiseBusError e s).halted = s.halted := rfl
@[simp] theorem raiseBusError_cs (e : BusErrorT) (s : State) : (raiseBusError e s).cs = s.cs := rfl
@[simp] theorem raiseBusError_en (e : BusErrorT) (s : State) : (raiseBusError e s).en = s.en := rfl
@[simp] theorem raiseBusError_obs (e : BusErrorT) (s : State) : (raiseBusError e s).obs = s.obs ++ [.result (.busErr e)] := rfl
@[simp] theorem raiseBusError_pins (e : BusErrorT) (s : State) : (raiseBusError e s).pins = s.pins := rfl
@[simp] theorem raiseBusError_future (e : BusErrorT) (s : State) : (raiseBusError e s).future = s.future := rfl
@[simp] theorem raiseBusError_draws (e : BusErrorT) (s : State) : (raiseBusError e s).draws = s.draws := rfl

@[simp] theorem raiseFatalIo_phase (s : State) : (raiseFatalIo s).phase = s.phase := rfl
@[simp] theorem raiseFatalIo_txb (s : State) : (raiseFatalIo s).txb = s.txb := rfl
@[simp] theorem raiseFatalIo_rxb (s : State) : (raiseFatalIo s).rxb = s.rxb := rfl
@[simp] theorem raiseFatalIo_cur (s : State) : (raiseFatalIo s).cur = s.cur := rfl
@[simp] theorem raiseFatalIo_halted (s : State) : (raiseFatalIo s).halted = true := rfl
@[simp] theorem raiseFatalIo_cs (s : State) : (raiseFatalIo s).cs = s.cs := rfl
@[simp] theorem raiseFatalIo_en (s : State) : (raiseFatalIo s).en = s.en := rfl
@[simp] theorem raiseFatalIo_obs (s : State) : (raiseFatalIo s).obs = s.obs := rfl
@[simp] theorem raiseFatalIo_pins (s : State) : (raiseFatalIo s).pins = s.pins := rfl
@[simp] theorem raiseFatalIo_future (s : State) : (raiseFatalIo s).future = s.future := rfl
@[simp] theorem raiseFatalIo_draws (s : State) : (raiseFatalIo s).draws = s.draws := rfl

@[simp] theorem applyReset_phase (s : State) : (applyReset s).phase = .idle := rfl
@[simp] theorem applyReset_txb (s : State) : (applyReset s).txb = Config.freeFrame (s.draws + 1) := rfl
@[simp] theorem applyReset_rxb (s : State) : (applyReset s).rxb = Config.freeFrame (s.draws + 1 + 1) := rfl
@[simp] theorem applyReset_cur (s : State) : (applyReset s).cur = Config.freeLatched s.draws := rfl
@[simp] theorem applyReset_halted (s : State) : (applyReset s).halted = false := rfl
@[simp] theorem applyReset_cs (s : State) : (applyReset s).cs = .high := rfl
@[simp] theorem applyReset_en (s : State) : (applyReset s).en = .undef := rfl
@[simp] theorem applyReset_obs (s : State) : (applyReset s).obs = [] := rfl
@[simp] theorem applyReset_pins (s : State) : (applyReset s).pins = s.pins := rfl
@[simp] theorem applyReset_future (s : State) : (applyReset s).future = s.future := rfl
@[simp] theorem applyReset_draws (s : State) : (applyReset s).draws = s.draws + 1 + 1 + 1 := rfl

@[simp] theorem present_phase (c : Command) (s : State) : (present c s).phase = s.phase := rfl
@[simp] theorem present_txb (c : Command) (s : State) : (present c s).txb = s.txb := rfl
@[simp] theorem present_rxb (c : Command) (s : State) : (present c s).rxb = s.rxb := rfl
@[simp] theorem present_cur (c : Command) (s : State) : (present c s).cur = s.cur := rfl
@[simp] theorem present_halted (c : Command) (s : State) : (present c s).halted = s.halted := rfl
@[simp] theorem present_cs (c : Command) (s : State) : (present c s).cs = s.cs := rfl
@[simp] theorem present_en (c : Command) (s : State) : (present c s).en = s.en := rfl
@[simp] theorem present_obs (c : Command) (s : State) : (present c s).obs = s.obs := rfl
@[simp] theorem present_pins (c : Command) (s : State) : (present c s).pins = { s.pins with command := some c, reset := false } := rfl
@[simp] theorem present_future (c : Command) (s : State) : (present c s).future = s.future := rfl
@[simp] theorem present_draws (c : Command) (s : State) : (present c s).draws = s.draws := rfl

@[simp] theorem trace_of_obs (s : State) : s.trace = s.obs.filterMap Obs.event? := rfl
@[simp] theorem results_of_obs (s : State) : s.results = s.obs.filterMap Obs.result? := rfl
@[simp] theorem events_of_event (e : Event) (os : List Obs) :
    (Obs.event e :: os).filterMap Obs.event? = e :: os.filterMap Obs.event? := rfl
@[simp] theorem events_of_result (r : OpResult) (os : List Obs) :
    (Obs.result r :: os).filterMap Obs.event? = os.filterMap Obs.event? := rfl
@[simp] theorem results_of_event (e : Event) (os : List Obs) :
    (Obs.event e :: os).filterMap Obs.result? = os.filterMap Obs.result? := rfl
@[simp] theorem results_of_result (r : OpResult) (os : List Obs) :
    (Obs.result r :: os).filterMap Obs.result? = r :: os.filterMap Obs.result? := rfl

@[simp] theorem mapNext_next (f : State → State) (t : State) : mapNext f (.next t) = .next (f t) := rfl
@[simp] theorem mapNext_fault (f : State → State) (e : Fault) : mapNext f (.fault e) = .fault e := rfl
@[simp] theorem mapNext_refused (f : State → State) (e : Refusal) :
    mapNext f (.refused e) = .refused e := rfl

end Sys2Proof.Machine
end

