-- ==== Sys2Proof/Laws/Ops.lean ====
section
/-! SUPPORT. What the shared operations can do, said once: admission to the command port, sampling a
diagnostic line, and the outside moving on. -/

namespace Sys2Proof.Machine

/-- `admitted` answers a next state exactly when the preconditions of R124 hold, and then the given one. -/
theorem admitted_eq_next {u : Bool} {s t t' : State} :
    admitted u s t = .next t' ↔
      s.halted = false ∧ s.phase = .idle ∧ (s.cs = .undef → u = true) ∧ t' = t := by
  unfold admitted
  split
  · simp_all
  · split
    · simp_all
    · split
      · simp_all
      · rename_i h1 h2 h3
        simp only [Host.Outcome.next.injEq]
        constructor
        · rintro rfl
          refine ⟨by simpa using h1, by simpa using h2, fun hc => ?_, rfl⟩
          cases u
          · exact absurd ⟨hc, rfl⟩ h3
          · rfl
        · rintro ⟨-, -, -, rfl⟩
          rfl

/-- In a ready state every operation is admitted. -/
theorem admitted_of_ready {u : Bool} {s t : State} (h : s.Ready) : admitted u s t = .next t :=
  admitted_eq_next.2 ⟨h.1, h.2.1, fun hc => absurd hc h.2.2, rfl⟩

theorem admitted_halted {u : Bool} {s t : State} (h : s.halted = true) : admitted u s t = .fault .halted := by
  simp [admitted, h]

theorem admitted_busy {u : Bool} {s t : State} (h : s.halted = false) (hp : s.phase ≠ .idle) :
    admitted u s t = .refused .portBusy := by
  simp [admitted, h, hp]

theorem admitted_undef {s t : State} (h : s.halted = false) (hp : s.phase = .idle) (hc : s.cs = .undef) :
    admitted false s t = .refused .chipSelectUndefined := by
  simp [admitted, h, hp, hc]

/-- `mapNext` answers a next state exactly when the outcome it maps does. -/
theorem mapNext_eq_next {f : State → State} {r : Result} {t : State} :
    mapNext f r = .next t ↔ ∃ t0, r = .next t0 ∧ t = f t0 := by
  cases r <;> simp [mapNext, eq_comm]

/-- What a sample does, by its answer (R207, R208). -/
theorem sampleDiag_ok {line : DiagLine} {s : State} {b : Bool} (h : s.pins.diag line = .ok b) :
    sampleDiag line s = (s.emit (.diag line (.ok b))).deliver (.level b) := by
  simp [sampleDiag, h]

theorem sampleDiag_ioFail {line : DiagLine} {s : State} (h : s.pins.diag line = .ioFail) :
    sampleDiag line s = raiseFatalIo (s.emit (.diag line .ioFail)) := by
  simp [sampleDiag, h]

/-- The outside moving on changes the ports, what follows, and the count of free values: nothing of
the block. -/
theorem advance_frame (s : State) :
    ∃ p ps n, advance s = { s with pins := p, future := ps, draws := n } := by
  unfold advance
  split
  · exact ⟨_, _, s.draws, rfl⟩
  · rename_i h
    exact ⟨_, s.future, _, rfl⟩

@[simp] theorem advance_phase (s : State) : (advance s).phase = s.phase := by
  unfold advance; split <;> rfl
@[simp] theorem advance_txb (s : State) : (advance s).txb = s.txb := by
  unfold advance; split <;> rfl
@[simp] theorem advance_rxb (s : State) : (advance s).rxb = s.rxb := by
  unfold advance; split <;> rfl
@[simp] theorem advance_cur (s : State) : (advance s).cur = s.cur := by
  unfold advance; split <;> rfl
@[simp] theorem advance_halted (s : State) : (advance s).halted = s.halted := by
  unfold advance; split <;> rfl
@[simp] theorem advance_cs (s : State) : (advance s).cs = s.cs := by
  unfold advance; split <;> rfl
@[simp] theorem advance_en (s : State) : (advance s).en = s.en := by
  unfold advance; split <;> rfl
@[simp] theorem advance_obs (s : State) : (advance s).obs = s.obs := by
  unfold advance; split <;> rfl

theorem advance_cons {s : State} {p : Pins} {ps : List Pins} (h : s.future = p :: ps) :
    advance s = { s with pins := p, future := ps } := by
  simp [advance, h]

end Sys2Proof.Machine
end

