-- ==== Sys2Proof/Laws/Engine.lean ====
section
/-! SUPPORT. The phase machine: the fields after each of its steps, what `settle` does after an accepted
operation by what the bus port shows, and the inversion of `phaseStep`. -/

namespace Sys2Proof.Machine

@[simp] theorem accept_phase (i : Instr) (tx : Frame) (s : State) : (accept i tx s).phase = .selected := rfl
@[simp] theorem accept_txb (i : Instr) (tx : Frame) (s : State) : (accept i tx s).txb = tx := rfl
@[simp] theorem accept_rxb (i : Instr) (tx : Frame) (s : State) : (accept i tx s).rxb = s.rxb := rfl
@[simp] theorem accept_cur (i : Instr) (tx : Frame) (s : State) : (accept i tx s).cur = ⟨i, none⟩ := rfl
@[simp] theorem accept_halted (i : Instr) (tx : Frame) (s : State) : (accept i tx s).halted = s.halted := rfl
@[simp] theorem accept_cs (i : Instr) (tx : Frame) (s : State) : (accept i tx s).cs = .low := rfl
@[simp] theorem accept_en (i : Instr) (tx : Frame) (s : State) : (accept i tx s).en = s.en := rfl
@[simp] theorem accept_obs (i : Instr) (tx : Frame) (s : State) : (accept i tx s).obs = s.obs ++ [.event .csLow] := rfl
@[simp] theorem accept_pins (i : Instr) (tx : Frame) (s : State) : (accept i tx s).pins = s.pins := rfl
@[simp] theorem accept_future (i : Instr) (tx : Frame) (s : State) : (accept i tx s).future = s.future := rfl
@[simp] theorem accept_draws (i : Instr) (tx : Frame) (s : State) : (accept i tx s).draws = s.draws := rfl

@[simp] theorem startExchange_phase (s : State) : (startExchange s).phase = .transferring := rfl
@[simp] theorem startExchange_txb (s : State) : (startExchange s).txb = s.txb := rfl
@[simp] theorem startExchange_rxb (s : State) : (startExchange s).rxb = s.rxb := rfl
@[simp] theorem startExchange_cur (s : State) : (startExchange s).cur = s.cur := rfl
@[simp] theorem startExchange_halted (s : State) : (startExchange s).halted = s.halted := rfl
@[simp] theorem startExchange_cs (s : State) : (startExchange s).cs = s.cs := rfl
@[simp] theorem startExchange_en (s : State) : (startExchange s).en = s.en := rfl
@[simp] theorem startExchange_obs (s : State) : (startExchange s).obs = s.obs := rfl
@[simp] theorem startExchange_pins (s : State) : (startExchange s).pins = s.pins := rfl
@[simp] theorem startExchange_future (s : State) : (startExchange s).future = s.future := rfl
@[simp] theorem startExchange_draws (s : State) : (startExchange s).draws = s.draws := rfl

@[simp] theorem completeOk_phase (rx : Frame) (s : State) : (completeOk rx s).phase = .released := rfl
@[simp] theorem completeOk_txb (rx : Frame) (s : State) : (completeOk rx s).txb = Config.freeFrame s.draws := rfl
@[simp] theorem completeOk_rxb (rx : Frame) (s : State) : (completeOk rx s).rxb = rx := rfl
@[simp] theorem completeOk_cur (rx : Frame) (s : State) : (completeOk rx s).cur = { s.cur with answer := some .ok } := rfl
@[simp] theorem completeOk_halted (rx : Frame) (s : State) : (completeOk rx s).halted = s.halted := rfl
@[simp] theorem completeOk_cs (rx : Frame) (s : State) : (completeOk rx s).cs = .high := rfl
@[simp] theorem completeOk_en (rx : Frame) (s : State) : (completeOk rx s).en = s.en := rfl
@[simp] theorem completeOk_obs (rx : Frame) (s : State) : (completeOk rx s).obs = s.obs ++ [.event (.xchg s.txb (.ok rx))] ++ [.event .csHigh] := rfl
@[simp] theorem completeOk_pins (rx : Frame) (s : State) : (completeOk rx s).pins = s.pins := rfl
@[simp] theorem completeOk_future (rx : Frame) (s : State) : (completeOk rx s).future = s.future := rfl
@[simp] theorem completeOk_draws (rx : Frame) (s : State) : (completeOk rx s).draws = s.draws + 1 := rfl

@[simp] theorem completeErr_phase (e : BusErrorT) (s : State) : (completeErr e s).phase = .released := rfl
@[simp] theorem completeErr_txb (e : BusErrorT) (s : State) : (completeErr e s).txb = Config.freeFrame s.draws := rfl
@[simp] theorem completeErr_rxb (e : BusErrorT) (s : State) : (completeErr e s).rxb = Config.freeFrame (s.draws + 1) := rfl
@[simp] theorem completeErr_cur (e : BusErrorT) (s : State) : (completeErr e s).cur = { s.cur with answer := some (.err e) } := rfl
@[simp] theorem completeErr_halted (e : BusErrorT) (s : State) : (completeErr e s).halted = s.halted := rfl
@[simp] theorem completeErr_cs (e : BusErrorT) (s : State) : (completeErr e s).cs = .high := rfl
@[simp] theorem completeErr_en (e : BusErrorT) (s : State) : (completeErr e s).en = s.en := rfl
@[simp] theorem completeErr_obs (e : BusErrorT) (s : State) : (completeErr e s).obs = s.obs ++ [.event (.xchg s.txb (.err e))] ++ [.event .csHigh] := rfl
@[simp] theorem completeErr_pins (e : BusErrorT) (s : State) : (completeErr e s).pins = s.pins := rfl
@[simp] theorem completeErr_future (e : BusErrorT) (s : State) : (completeErr e s).future = s.future := rfl
@[simp] theorem completeErr_draws (e : BusErrorT) (s : State) : (completeErr e s).draws = s.draws + 1 + 1 := rfl

@[simp] theorem cancelExchange_phase (s : State) : (cancelExchange s).phase = .idle := rfl
@[simp] theorem cancelExchange_txb (s : State) : (cancelExchange s).txb = Config.freeFrame (s.draws + 1) := rfl
@[simp] theorem cancelExchange_rxb (s : State) : (cancelExchange s).rxb = Config.freeFrame (s.draws + 1 + 1) := rfl
@[simp] theorem cancelExchange_cur (s : State) : (cancelExchange s).cur = Config.freeLatched s.draws := rfl
@[simp] theorem cancelExchange_halted (s : State) : (cancelExchange s).halted = s.halted := rfl
@[simp] theorem cancelExchange_cs (s : State) : (cancelExchange s).cs = .undef := rfl
@[simp] theorem cancelExchange_en (s : State) : (cancelExchange s).en = s.en := rfl
@[simp] theorem cancelExchange_obs (s : State) : (cancelExchange s).obs = s.obs ++ [.event (.xchg s.txb .cancelled)] := rfl
@[simp] theorem cancelExchange_pins (s : State) : (cancelExchange s).pins = s.pins := rfl
@[simp] theorem cancelExchange_future (s : State) : (cancelExchange s).future = s.future := rfl
@[simp] theorem cancelExchange_draws (s : State) : (cancelExchange s).draws = s.draws + 1 + 1 + 1 := rfl
theorem phaseStep_idle {s : State} (h : s.phase = .idle) : phaseStep s = s := by
  simp [phaseStep, h]

theorem phaseStep_selected {s : State} (h : s.phase = .selected) : phaseStep s = startExchange s := by
  simp [phaseStep, h]

theorem phaseStep_transferring {s : State} (h : s.phase = .transferring) : phaseStep s = pollBus s := by
  simp [phaseStep, h]

theorem phaseStep_released {s : State} (h : s.phase = .released) : phaseStep s = resultStep s := by
  simp [phaseStep, h]

theorem pollBus_silent {s : State} (h : s.pins.bus = .silent) : pollBus s = s := by
  simp [pollBus, h]

theorem pollBus_ok {s : State} {rx : Frame} (h : s.pins.bus = .ok rx) :
    pollBus s = completeOk rx s := by
  simp [pollBus, h]

theorem pollBus_err {s : State} {e : BusErrorT} (h : s.pins.bus = .err e) :
    pollBus s = completeErr e s := by
  simp [pollBus, h]

theorem pollBus_cancel {s : State} (h : s.pins.bus = .cancel) : pollBus s = cancelExchange s := by
  simp [pollBus, h]

theorem resultStep_ok {s : State} (h : s.cur.answer = some .ok) :
    resultStep s = forgetTransient { s.deliver (okResult s.rxb) with phase := .idle } := by
  simp [resultStep, h]

theorem resultStep_err {s : State} {e : BusErrorT} (h : s.cur.answer = some (.err e)) :
    resultStep s = forgetTransient { raiseBusError e s with phase := .idle } := by
  simp [resultStep, h]

theorem settle_idle {s : State} (h : s.phase = .idle) : settle s = s := by
  simp [settle, phaseStep_idle h]

/-- A transaction that waits stays as it is while the bus is silent (R121). -/
theorem settle_transferring_silent {s : State} (h : s.phase = .transferring)
    (hb : s.pins.bus = .silent) : settle s = s := by
  simp [settle, phaseStep_transferring h, pollBus_silent hb]

/-- After a completion the phase machine takes the result step (R126). -/
@[simp] theorem phaseStep_completeOk (rx : Frame) (s : State) :
    phaseStep (completeOk rx s) = resultStep (completeOk rx s) := phaseStep_released rfl

@[simp] theorem phaseStep_completeErr (e : BusErrorT) (s : State) :
    phaseStep (completeErr e s) = resultStep (completeErr e s) := phaseStep_released rfl

@[simp] theorem phaseStep_cancelExchange (s : State) :
    phaseStep (cancelExchange s) = cancelExchange s := phaseStep_idle rfl

/-- What a transaction that was answered `Ok` leaves (R114, R116). -/
def finishOk (rx : Frame) (s : State) : State :=
  forgetTransient { (completeOk rx s).deliver (okResult rx) with phase := .idle }

/-- What a transaction that was answered `Err` leaves (R115, R116, R228). -/
def finishErr (e : BusErrorT) (s : State) : State :=
  forgetTransient { raiseBusError e (completeErr e s) with phase := .idle }

@[simp] theorem resultStep_completeOk (rx : Frame) (s : State) :
    resultStep (completeOk rx s) = finishOk rx s := resultStep_ok rfl

@[simp] theorem resultStep_completeErr (e : BusErrorT) (s : State) :
    resultStep (completeErr e s) = finishErr e s := resultStep_err rfl

theorem phaseStep_finishOk (rx : Frame) (s : State) :
    phaseStep (finishOk rx s) = finishOk rx s := phaseStep_idle rfl

theorem phaseStep_finishErr (e : BusErrorT) (s : State) :
    phaseStep (finishErr e s) = finishErr e s := phaseStep_idle rfl

/-- A transaction that waits completes and delivers when the bus answers `Ok` (R114, R116). -/
theorem settle_transferring_ok {s : State} {rx : Frame} (h : s.phase = .transferring)
    (hb : s.pins.bus = .ok rx) : settle s = finishOk rx s := by
  rw [settle, phaseStep_transferring h, pollBus_ok hb, phaseStep_completeOk, resultStep_completeOk]
  exact phaseStep_finishOk rx s

/-- A transaction that waits completes and delivers when the bus answers `Err` (R115, R116). -/
theorem settle_transferring_err {s : State} {e : BusErrorT} (h : s.phase = .transferring)
    (hb : s.pins.bus = .err e) : settle s = finishErr e s := by
  rw [settle, phaseStep_transferring h, pollBus_err hb, phaseStep_completeErr, resultStep_completeErr]
  exact phaseStep_finishErr e s

/-- A transaction that waits ends when the host cancels (R122). -/
theorem settle_transferring_cancel {s : State} (h : s.phase = .transferring)
    (hb : s.pins.bus = .cancel) : settle s = cancelExchange s := by
  rw [settle, phaseStep_transferring h, pollBus_cancel hb]
  simp

/-- A transaction whose exchange was answered delivers its result (R116). -/
theorem settle_released {s : State} (h : s.phase = .released) :
    settle s = resultStep s := by
  rw [settle, phaseStep_released h]
  cases ha : s.cur.answer with
  | none =>
    have hs : resultStep s = s := by simp [resultStep, ha]
    rw [hs, phaseStep_released h, hs, phaseStep_released h, hs]
  | some v =>
    have hi : (resultStep s).phase = .idle := by
      cases v with
      | ok => rw [resultStep_ok ha]; rfl
      | err e => rw [resultStep_err ha]; rfl
    rw [phaseStep_idle hi, phaseStep_idle hi]

/-- A selected transaction starts its exchange and looks at the bus port in the same step. -/
theorem settle_selected {s : State} (h : s.phase = .selected) :
    settle s = settle (startExchange s) := by
  have hp : (startExchange s).phase = .transferring := rfl
  rw [settle, phaseStep_selected h, phaseStep_transferring hp]
  cases hb : s.pins.bus with
  | silent =>
    have hb' : (startExchange s).pins.bus = .silent := hb
    rw [settle_transferring_silent hp hb', pollBus_silent hb', phaseStep_transferring hp,
      pollBus_silent hb']
  | ok rx =>
    have hb' : (startExchange s).pins.bus = .ok rx := hb
    rw [settle_transferring_ok hp hb', pollBus_ok hb', phaseStep_completeOk, resultStep_completeOk]
  | err e =>
    have hb' : (startExchange s).pins.bus = .err e := hb
    rw [settle_transferring_err hp hb', pollBus_err hb', phaseStep_completeErr, resultStep_completeErr]
  | cancel =>
    have hb' : (startExchange s).pins.bus = .cancel := hb
    rw [settle_transferring_cancel hp hb', pollBus_cancel hb', phaseStep_cancelExchange]

/-- An accepted operation, by what the bus port shows. -/
theorem settle_accept (i : Instr) (tx : Frame) (s : State) :
    settle (accept i tx s) =
      match s.pins.bus with
      | .silent => startExchange (accept i tx s)
      | .ok rx => finishOk rx (startExchange (accept i tx s))
      | .err e => finishErr e (startExchange (accept i tx s))
      | .cancel => cancelExchange (startExchange (accept i tx s)) := by
  have hp : (startExchange (accept i tx s)).phase = .transferring := rfl
  rw [settle_selected (s := accept i tx s) rfl]
  cases hb : s.pins.bus with
  | silent => exact settle_transferring_silent hp hb
  | ok rx => exact settle_transferring_ok hp hb
  | err e => exact settle_transferring_err hp hb
  | cancel => exact settle_transferring_cancel hp hb

end Sys2Proof.Machine
end

