-- ==== Sys2Proof/Laws/Exec.lean ====
section
/-! SUPPORT. The inversion of `exec` and of `step`: what an operation, and a step, can do. -/

namespace Sys2Proof.Machine

/-- A frame operation is its accept step and the phase machine (R110). -/
theorem exec_of_frame {i : Instr} {tx : Frame} (h : frameOf i = some tx) (s : State) :
    exec i s = frameOp i tx s := by
  cases i <;> simp_all [frameOf, exec, execXfer, execRdraw, execRds32, execRdu32, execWrraw, execWrs32,
    execWru32]

/-- Everything an operation that answers a next state can have done. -/
theorem exec_next_cases {i : Instr} {s t : State} (h : exec i s = .next t) :
    s.halted = false ∧ s.phase = .idle ∧
      ((∃ tx, frameOf i = some tx ∧ s.cs ≠ .undef ∧ t = settle (accept i tx s)) ∨
       (i = .csassert ∧ s.cs ≠ .undef ∧ t = (driveCs .low s).deliver .done) ∨
       (i = .csrelease ∧ t = (driveCs .high s).deliver .done) ∨
       (i = .enassert ∧ s.cs ≠ .undef ∧ t = (driveEn Config.enAssertLevel s).deliver .done) ∨
       (i = .enrelease ∧ s.cs ≠ .undef ∧ t = (driveEn Config.enAssertLevel.other s).deliver .done) ∨
       (i = .rddiag0 ∧ s.cs ≠ .undef ∧ t = sampleDiag .diag0 s) ∨
       (i = .rddiag1 ∧ s.cs ≠ .undef ∧ t = sampleDiag .diag1 s)) := by
  cases hf : frameOf i with
  | some tx =>
    rw [exec_of_frame hf, frameOp, admitted_eq_next] at h
    obtain ⟨h1, h2, h3, rfl⟩ := h
    exact ⟨h1, h2, .inl ⟨tx, rfl, fun hc => by simpa using h3 hc, rfl⟩⟩
  | none =>
    cases i <;> simp only [frameOf, reduceCtorEq] at hf
    all_goals
      simp only [exec, execCsassert, execCsrelease, execEnassert, execEnrelease, execRddiag0,
        execRddiag1] at h
      rw [admitted_eq_next] at h
      obtain ⟨h1, h2, h3, rfl⟩ := h
      simp_all

/-- While a transaction is under way a step is the phase machine's (R126). -/
theorem step_of_busy {s : State} (hr : s.pins.reset = false) (hh : s.halted = false)
    (hp : s.phase ≠ .idle) : step s = .next (advance (settle s)) := by
  cases h : s.phase with
  | idle => exact absurd h hp
  | selected => simp [step, hr, hh, h]
  | transferring => simp [step, hr, hh, h]
  | released => simp [step, hr, hh, h]

theorem step_of_reset {s : State} (hr : s.pins.reset = true) :
    step s = .next (advance (applyReset s)) := by
  simp [step, hr]

/-- A run whose first step answers `t` goes on from `t`. -/
theorem core_run_succ {n : Nat} {s t : State} (h : step s = .next t) :
    core.run (n + 1) s = core.run n t := by
  have hc : core.step s = .next t := h
  simp only [Host.Core.run, hc]

/-- Everything a step that answers a next state can have done. -/
theorem step_next_cases {s t : State} (h : step s = .next t) :
    (s.pins.reset = true ∧ t = advance (applyReset s)) ∨
    (s.pins.reset = false ∧ s.halted = false ∧
      ((s.phase = .idle ∧ fetch s = none ∧ t = advance s) ∨
       (∃ i t0, s.phase = .idle ∧ fetch s = some (.ok i) ∧ exec i s = .next t0 ∧ t = advance t0) ∨
       (s.phase ≠ .idle ∧ t = advance (settle s)))) := by
  unfold step at h
  split at h
  · rename_i hr
    simp only [Host.Outcome.next.injEq] at h
    exact .inl ⟨hr, h.symm⟩
  · rename_i hr
    refine .inr ⟨by simpa using hr, ?_⟩
    split at h
    · cases h
    · rename_i hh
      refine ⟨by simpa using hh, ?_⟩
      split at h
      · rename_i hp
        split at h
        · rename_i hf
          simp only [Host.Outcome.next.injEq] at h
          exact .inl ⟨hp, hf, h.symm⟩
        · cases h
        · rename_i i hf
          obtain ⟨t0, h1, h2⟩ := mapNext_eq_next.1 h
          exact .inr (.inl ⟨i, t0, hp, hf, h1, h2⟩)
      all_goals
        rename_i hp
        simp only [Host.Outcome.next.injEq] at h
        exact .inr (.inr ⟨by simp [hp], h.symm⟩)

end Sys2Proof.Machine
end

