-- ==== Sys2Proof/Laws/Operands.lean ====
section
/-! SUPPORT. Lemmas about the operand forms: the entries of the register table, the bits of a frame as one
pattern, and the value of four payload bytes. -/

namespace Sys2Proof

/-- What the constraints of R52 say of a further entry of the table. -/
theorem furtherRegs_mem {a : Addr} (h : a ∈ Config.furtherRegs) :
    a.toNat ≤ 0x73 ∧ a ≠ 0x21#7 ∧ a ≠ 0x27#7 ∧ a ≠ Config.gap := by
  simp only [Config.furtherRegs, List.mem_dedup, List.mem_filter, Config.mayBeFurther,
    Bool.and_eq_true, decide_eq_true_eq, bne_iff_ne] at h
  exact ⟨h.2.1.1.1, h.2.1.1.2, h.2.1.2, h.2.2⟩

theorem furtherRegs_nodup : Config.furtherRegs.Nodup := List.nodup_dedup _

theorem addr_other_mem (k : Fin Config.furtherRegs.length) :
    addr (.other k) ∈ Config.furtherRegs := List.get_mem _ _

/-- With XACTUAL and VMAX the table has at most one entry per 7-bit address, so every Register
identifier has a number of 7 bits. -/
theorem furtherRegs_length_le : Config.furtherRegs.length ≤ 126 := by
  have hn : (0x21#7 :: 0x27#7 :: Config.furtherRegs).Nodup := by
    refine List.nodup_cons.2 ⟨?_, List.nodup_cons.2 ⟨?_, furtherRegs_nodup⟩⟩
    · rintro (_ | ⟨_, hm⟩)
      exact (furtherRegs_mem hm).2.1 rfl
    · exact fun hm => (furtherRegs_mem hm).2.2.1 rfl
  have hc : (0x21#7 :: 0x27#7 :: Config.furtherRegs).length ≤ 128 := by
    have hi := (List.nodup_iff_injective_get.1 hn)
    have := Fintype.card_le_of_injective
      (fun i => (⟨((0x21#7 :: 0x27#7 :: Config.furtherRegs).get i).toNat, BitVec.isLt _⟩ : Fin (2 ^ 7)))
      (fun i j h => hi (BitVec.eq_of_toNat_eq (Fin.mk.inj h)))
    simpa using this
  rw [List.length_cons, List.length_cons] at hc
  omega

/-- A bit of the 40-bit pattern is a bit of the concatenation of the five bytes. -/
theorem wireBits_getLsbD (f : Frame) (n : Nat) :
    (wireBits f).getLsbD n = (f.b0 ++ f.b1 ++ f.b2 ++ f.b3 ++ f.b4).getLsbD n := rfl

/-- The value of four payload bytes (R163): `p0 + 256*p1 + 65536*p2 + 16777216*p3`. -/
theorem de32_toNat (p : Payload) : (de32 p).toNat =
    p.p0.toNat + 256 * p.p1.toNat + 65536 * p.p2.toNat + 16777216 * p.p3.toNat := by
  have h0 := p.p0.isLt
  have h1 := p.p1.isLt
  have h2 := p.p2.isLt
  simp only [de32, BitVec.toNat_append]
  rw [← Nat.shiftLeft_add_eq_or_of_lt h0, ← Nat.shiftLeft_add_eq_or_of_lt h1,
    ← Nat.shiftLeft_add_eq_or_of_lt h2]
  simp only [Nat.shiftLeft_eq]
  omega

end Sys2Proof
end

