-- ==== Sys2Proof/Laws/PerInstr.lean ====
section
/-! SUPPORT. The family `Selector`: what the operation map of spec/30_encoding.md R92 says of each
operation's place in it, as a fact about the operation as syntax. -/

namespace Sys2Proof.Laws

/-- The command tuple of an operation carries its selector, which is none of the reserved 13, 14, 15
(R91, R92); an operation has a transmit frame exactly when the map gives it a transmit format. -/
def Selector.Statement (i : Instr) : Prop :=
  (encode i).op = selector i ∧ (selector i).toNat ≤ 12 ∧ (formatOf i).isSome = isFrameOp i

theorem Selector.xfer (c : Byte) (p : Payload) : Selector.Statement (.xfer c p) :=
  ⟨rfl, by simp [selector], rfl⟩

theorem Selector.rdraw (r : Reg) : Selector.Statement (.rdraw r) :=
  ⟨rfl, by simp [selector], rfl⟩

theorem Selector.rds32 (r : Reg) : Selector.Statement (.rds32 r) :=
  ⟨rfl, by simp [selector], rfl⟩

theorem Selector.rdu32 (r : Reg) : Selector.Statement (.rdu32 r) :=
  ⟨rfl, by simp [selector], rfl⟩

theorem Selector.wrraw (r : Reg) (p : Payload) : Selector.Statement (.wrraw r p) :=
  ⟨rfl, by simp [selector], rfl⟩

theorem Selector.wrs32 (r : Reg) (v : Int) : Selector.Statement (.wrs32 r v) :=
  ⟨rfl, by simp [selector], rfl⟩

theorem Selector.wru32 (r : Reg) (u : Nat) : Selector.Statement (.wru32 r u) :=
  ⟨rfl, by simp [selector], rfl⟩

theorem Selector.csassert : Selector.Statement .csassert :=
  ⟨rfl, by simp [selector], rfl⟩

theorem Selector.csrelease : Selector.Statement .csrelease :=
  ⟨rfl, by simp [selector], rfl⟩

theorem Selector.enassert : Selector.Statement .enassert :=
  ⟨rfl, by simp [selector], rfl⟩

theorem Selector.enrelease : Selector.Statement .enrelease :=
  ⟨rfl, by simp [selector], rfl⟩

theorem Selector.rddiag0 : Selector.Statement .rddiag0 :=
  ⟨rfl, by simp [selector], rfl⟩

theorem Selector.rddiag1 : Selector.Statement .rddiag1 :=
  ⟨rfl, by simp [selector], rfl⟩

end Sys2Proof.Laws
end

