-- ==== Sys2Proof/Machine/Text.lean ====
section
/-! DEFINITION. The written form of operations and results (spec/30_encoding.md R94): the mnemonic, then
the operands, then `->` and the result. Nothing in the machine reads it. -/

namespace Sys2Proof.Machine

/-- A hexadecimal digit, capital as R94 writes them. -/
def hexDigit (n : Nat) : Char := "0123456789ABCDEF".toList.getD n '0'

/-- A byte as `0xA7` (R94). -/
def byteText (b : Byte) : String :=
  "0x" ++ String.ofList [hexDigit (b.toNat / 16), hexDigit (b.toNat % 16)]

/-- A raw payload: a bracketed list of four bytes, payload byte 0 first (R94). -/
def payloadText (sep : String) (p : Payload) : String :=
  "[" ++ byteText p.p0 ++ sep ++ byteText p.p1 ++ sep ++ byteText p.p2 ++ sep ++ byteText p.p3 ++ "]"

/-- A register operand: its name in `REGS`, or `@` and its address where the source gives no name (R94). -/
def regText (r : Reg) : String :=
  match r with
  | .xactual => "XACTUAL"
  | .vmax => "VMAX"
  | .other _ => "@" ++ byteText ((addr r).setWidth 8)

/-- An operation: its mnemonic followed by its operands (R94). -/
def opText (i : Instr) : String :=
  match i with
  | .xfer c p => mnemonic i ++ " " ++ byteText c ++ ", " ++ payloadText ", " p
  | .rdraw r => mnemonic i ++ " " ++ regText r
  | .rds32 r => mnemonic i ++ " " ++ regText r
  | .rdu32 r => mnemonic i ++ " " ++ regText r
  | .wrraw r p => mnemonic i ++ " " ++ regText r ++ ", " ++ payloadText ", " p
  | .wrs32 r v => mnemonic i ++ " " ++ regText r ++ ", " ++ toString v
  | .wru32 r u => mnemonic i ++ " " ++ regText r ++ ", " ++ toString u
  | .csassert => mnemonic i
  | .csrelease => mnemonic i
  | .enassert => mnemonic i
  | .enrelease => mnemonic i
  | .rddiag0 => mnemonic i
  | .rddiag1 => mnemonic i

/-- A result, after `->` (R94). -/
def resultText (r : OpResult) : String :=
  match r with
  | .ok st p => "-> Ok(st=" ++ byteText (statusEncode st) ++ ", p=" ++ payloadText "," p ++ ")"
  | .busErr e => "-> BusErr(" ++ toString e.token ++ ")"
  | .done => "-> Done"
  | .level b => "-> Level(" ++ toString b ++ ")"

/-- A program: one operation per line, in the order the host presents them (R94, R62). -/
def programText (is : List Instr) : String := String.intercalate "\n" (is.map opText)

end Sys2Proof.Machine
end

