-- ==== Sys2Proof/Tests/Slice0.lean ====
section
/-! SUPPORT. The model's own tests. Every expected value is the spec's: its worked examples S1 to S5, its
derived vectors V1 to V7 and its programs P1 to P6 (spec/95_test_vectors.md), the examples of its
operation rules, and words written out by hand from the operation map R92 and log entry 2. A theorem
`witness_<statement>` shows concrete data that meet all hypotheses of that statement together. -/

namespace Sys2Proof.Machine

/-! ### Small states -/

/-- Ports with a bus turn: no command, line 0 High, line 1 Low, no reset. -/
def busPins (b : BusTurn) : Pins := ⟨none, b, .ok true, .ok false, false⟩

/-- Ports on which a sample of either line fails. -/
def brokenPins : Pins := ⟨none, .silent, .ioFail, .ioFail, false⟩

/-- The state after reset with ports `p`: idle, chip-select High, not halted. -/
def idleWith (p : Pins) : State := { State.reset with pins := p }

/-- The same with a bus turn. -/
def readyWith (b : BusTurn) : State := idleWith (busPins b)

/-- `RDRAW XACTUAL` accepted and waiting (R113), with a bus turn. -/
def waitingWith (b : BusTurn) : State :=
  { readyWith b with
    phase := .transferring, txb := ⟨0x21#8, 0#8, 0#8, 0#8, 0#8⟩, cur := ⟨.rdraw .xactual, none⟩,
    cs := .low, obs := [.event .csLow] }

/-- The same transaction before its start step (R112). -/
def selectedState : State := { waitingWith .silent with phase := .selected }

/-- An answer of the bus: the source's, 16 in XACTUAL (S2). -/
def rx16 : Frame := ⟨0x00#8, 0x10#8, 0x00#8, 0x00#8, 0x00#8⟩

/-- The read frame of XACTUAL (S2). -/
def txRead : Frame := ⟨0x21#8, 0x00#8, 0x00#8, 0x00#8, 0x00#8⟩

/-- The same transaction answered `v`, its result not yet delivered (R114, R115). -/
def releasedWith (v : Verdict) (ans : ExchangeEnd) : State :=
  { waitingWith .silent with
    phase := .released, rxb := rx16, cur := ⟨.rdraw .xactual, some v⟩, cs := .high,
    obs := [.event .csLow, .event (.xchg txRead ans), .event .csHigh] }

/-- Idle with chip-select asserted by hand (R201). -/
def manualState : State := { readyWith .silent with cs := .low, obs := [.event .csLow, .result .done] }

/-- Idle after a cancel (R122). -/
def cancelledState : State :=
  { readyWith .silent with cs := .undef, obs := [.event .csLow, .event (.xchg txRead .cancelled)] }

/-- Halted by a failed sample (R229). -/
def haltedState : State :=
  { idleWith brokenPins with halted := true, obs := [.event (.diag .diag1 .ioFail)] }

/-- The observation after an outcome, if it is a next state. -/
def obsOf : Result → Option (List Obs)
  | .next t => some t.obs
  | .fault _ => none
  | .refused _ => none

/-- `(phase, cs, halted)` after an outcome, if it is a next state. -/
def linesOf : Result → Option (Phase × Latch × Bool)
  | .next t => some (t.phase, t.cs, t.halted)
  | .fault _ => none
  | .refused _ => none

/-- `en` after an outcome, if it is a next state. -/
def enOf : Result → Option Latch
  | .next t => some t.en
  | .fault _ => none
  | .refused _ => none

/-! ### WellFormed: each check with an ill-formed term that it refuses, and its boundary -/

theorem test_wf_wrs32_high : wellFormed (.wrs32 .vmax 2147483648) = false := by decide
theorem test_wf_wrs32_low : wellFormed (.wrs32 .vmax (-2147483649)) = false := by decide
theorem test_wf_wru32_high : wellFormed (.wru32 .vmax 4294967296) = false := by decide
theorem test_wf_boundaries :
    wellFormed (.wrs32 .vmax 2147483647) = true ∧ wellFormed (.wrs32 .vmax (-2147483648)) = true ∧
    wellFormed (.wru32 .vmax 4294967295) = true := by decide

/-! ### Decoding: words written out from R92 (selector in bits 3:0) and the layout of log entry 2 (`cmd` in
bits 11:4, `wdata` in bits 43:12 with payload byte 0 lowest, `reg` in bits 50:44: 0 is XACTUAL, 1 VMAX) -/

-- reg 0000000, wdata 04 03 02 01, cmd 0x7F, op 0
theorem test_decode_xfer :
    decodeTableWord 56 0x04030201_7F_0 = some (.xfer 0x7F#8 ⟨0x01#8, 0x02#8, 0x03#8, 0x04#8⟩) := by
  decide
-- reg 1, wdata 00000000, cmd 00, op 1
theorem test_decode_rdraw : decodeTableWord 56 0x1_00000000_00_1 = some (.rdraw .vmax) := by decide
-- reg 0, cmd 0xA7 ignored, op 2
theorem test_decode_rds32 : decodeTableWord 56 0x0_00000000_A7_2 = some (.rds32 .xactual) := by decide
-- reg 1, wdata FFFFFFFF ignored, op 3
theorem test_decode_rdu32 : decodeTableWord 56 0x1_FFFFFFFF_00_3 = some (.rdu32 .vmax) := by decide
-- reg 1, wdata 04 03 02 01, op 4
theorem test_decode_wrraw :
    decodeTableWord 56 0x1_04030201_00_4 = some (.wrraw .vmax ⟨0x01#8, 0x02#8, 0x03#8, 0x04#8⟩) := by
  decide
-- reg 1, wdata FF FF FF FB (payload byte 0 is FB), op 5
theorem test_decode_wrs32 : decodeTableWord 56 0x1_FFFFFFFB_00_5 = some (.wrs32 .vmax (-5)) := by
  decide
-- the same bits, op 6
theorem test_decode_wru32 : decodeTableWord 56 0x1_FFFFFFFB_00_6 = some (.wru32 .vmax 4294967291) := by
  decide
theorem test_decode_lines :
    decodeTableWord 8 0x07 = some .csassert ∧ decodeTableWord 8 0x08 = some .csrelease ∧
    decodeTableWord 8 0x09 = some .enassert ∧ decodeTableWord 8 0x0A = some .enrelease ∧
    decodeTableWord 8 0x0B = some .rddiag0 ∧ decodeTableWord 8 0x0C = some .rddiag1 := by decide
-- R91 (a): reserved selectors, whatever the other fields
theorem test_decode_reserved :
    decodeTableWord 8 0x0D = none ∧ decodeTableWord 8 0xFE = none ∧
    decodeTableWord 56 0x1_FFFFFFFB_00_F = none := by decide

/-- R53: the number 127 is no Register identifier's. The addresses of the table lie in 0x00 to 0x73 and
differ (R52), so it has at most 116 entries. -/
theorem test_no_such_register : decodeReg 0x7F#7 = .error (.noSuchRegister 0x7F#7) := by
  have h : ¬ (125 < Config.furtherRegs.length) := by
    intro hlt
    have hn := List.nodup_iff_injective_get.1 furtherRegs_nodup
    have hc := Fintype.card_le_of_injective
      (fun i : Fin Config.furtherRegs.length =>
        (⟨(Config.furtherRegs.get i).toNat, by
          have := (furtherRegs_mem (List.get_mem Config.furtherRegs i)).1
          omega⟩ : Fin 116))
      (fun i j hij => hn (BitVec.eq_of_toNat_eq (Fin.mk.inj hij)))
    simp only [Fintype.card_fin] at hc
    omega
  simp [decodeReg, h]

/-! ### Operands and frames (S2, S3, V1, V2, V4) -/

-- V1
theorem test_command_bytes :
    cmdByte false .xactual = 0x21#8 ∧ cmdByte true .xactual = 0xA1#8 ∧
    cmdByte false .vmax = 0x27#8 ∧ cmdByte true .vmax = 0xA7#8 := by decide
-- V2
theorem test_readings :
    signedReading ⟨0xEF#8, 0xBE#8, 0xAD#8, 0xDE#8⟩ = -559038737 ∧
    unsignedReading ⟨0xEF#8, 0xBE#8, 0xAD#8, 0xDE#8⟩ = 3735928559 ∧
    signedReading ⟨0x00#8, 0x00#8, 0x00#8, 0x80#8⟩ = -2147483648 ∧
    signedReading ⟨0xFF#8, 0xFF#8, 0xFF#8, 0x7F#8⟩ = 2147483647 := by decide
theorem test_ser32 : ser32 0x12345678#32 = ⟨0x78#8, 0x56#8, 0x34#8, 0x12#8⟩ := by decide
-- S3 and V4
theorem test_frame_wrs32 :
    frameOf (.wrs32 .vmax (-5)) = some ⟨0xA7#8, 0xFB#8, 0xFF#8, 0xFF#8, 0xFF#8⟩ ∧
    frameOf (.wrs32 .xactual (-2147483648)) = some ⟨0xA1#8, 0x00#8, 0x00#8, 0x00#8, 0x80#8⟩ := by decide
theorem test_frame_wru32 :
    frameOf (.wru32 .vmax 4294967291) = some ⟨0xA7#8, 0xFB#8, 0xFF#8, 0xFF#8, 0xFF#8⟩ := by decide
-- V3
theorem test_status :
    statusDecode 0x39#8 = ⟨false, false, true, true, true, false, false, true⟩ ∧
    statusDecode 0x06#8 = ⟨false, false, false, false, false, true, true, false⟩ ∧
    statusDecode 0xC0#8 = ⟨true, true, false, false, false, false, false, false⟩ := by decide
-- U4 and R141: the default of the layout is a bijection onto the bits 0 to 7
theorem test_status_layout :
    [statusLayout.stopLeft, statusLayout.stopRight, statusLayout.positionReached,
      statusLayout.velocityReached, statusLayout.standstill, statusLayout.stallFlag,
      statusLayout.driverError, statusLayout.resetFlag] = [7, 6, 5, 4, 3, 2, 1, 0] := by decide

/-! ### Text (R94) -/

theorem test_op_text :
    opText (.xfer 0xA7#8 ⟨0xFB#8, 0xFF#8, 0xFF#8, 0xFF#8⟩) = "XFER 0xA7, [0xFB, 0xFF, 0xFF, 0xFF]" ∧
    opText (.wrs32 .vmax (-5)) = "WRS32 VMAX, -5" ∧ opText (.rdraw .xactual) = "RDRAW XACTUAL" ∧
    opText (.wru32 .vmax 4294967291) = "WRU32 VMAX, 4294967291" := by decide
theorem test_result_text :
    resultText (.ok (statusDecode 0x00#8) ⟨0x10#8, 0x00#8, 0x00#8, 0x00#8⟩)
      = "-> Ok(st=0x00, p=[0x10,0x00,0x00,0x00])" := by decide
-- R223
theorem test_outcomes :
    outcomeNumber (OpResult.done).outcome = 0 ∧ outcomeNumber (OpResult.busErr BusErrorT.first).outcome = 1 ∧
    outcomeNumber .fatalIo = 2 := by decide

/-! ### One step of each operation -/

-- V4: XFER 0x7F, [1,2,3,4] is sent as given; the command arrives on the port
theorem test_step_xfer :
    obsOf (step ((readyWith (.ok rx16)).withFetchWord 56 0x04030201_7F_0)) =
      some [.event .csLow, .event (.xchg ⟨0x7F#8, 0x01#8, 0x02#8, 0x03#8, 0x04#8⟩ (.ok rx16)),
        .event .csHigh, .result (.ok (statusDecode 0x00#8) ⟨0x10#8, 0x00#8, 0x00#8, 0x00#8⟩)] := by
  decide
-- R161's example
theorem test_rdraw :
    obsOf (exec (.rdraw .xactual) (readyWith (.ok ⟨0x08#8, 0x78#8, 0x56#8, 0x34#8, 0x12#8⟩))) =
      some [.event .csLow, .event (.xchg txRead (.ok ⟨0x08#8, 0x78#8, 0x56#8, 0x34#8, 0x12#8⟩)),
        .event .csHigh,
        .result (.ok ⟨false, false, false, false, true, false, false, false⟩
          ⟨0x78#8, 0x56#8, 0x34#8, 0x12#8⟩)] := by decide
-- V5, bus error on read
theorem test_rdraw_bus_error :
    obsOf (exec (.rdraw .xactual) (readyWith (.err .first))) =
      some [.event .csLow, .event (.xchg txRead (.err .first)), .event .csHigh,
        .result (.busErr .first)] ∧
    linesOf (exec (.rdraw .xactual) (readyWith (.err .first))) = some (.idle, .high, false) :=
  ⟨rfl, rfl⟩
-- R162's example: V = -5
theorem test_rds32 :
    ((obsOf (exec (.rds32 .vmax) (readyWith (.ok ⟨0x00#8, 0xFB#8, 0xFF#8, 0xFF#8, 0xFF#8⟩)))).map
      fun os => os.filterMap Obs.result? |>.map OpResult.signed?) = some [some (-5)] := by decide
-- S2: U = 16
theorem test_rdu32 :
    ((obsOf (exec (.rdu32 .xactual) (readyWith (.ok rx16)))).map
      fun os => os.filterMap Obs.result? |>.map OpResult.unsigned?) = some [some 16] := by decide
-- V4
theorem test_wrraw :
    ((obsOf (exec (.wrraw .vmax ⟨0x01#8, 0x02#8, 0x03#8, 0x04#8⟩) (readyWith (.ok rx16)))).map
      fun os => os.filterMap Obs.event?) =
      some [.csLow, .xchg ⟨0xA7#8, 0x01#8, 0x02#8, 0x03#8, 0x04#8⟩ (.ok rx16), .csHigh] := by decide
-- V5, write, payload meaningless
theorem test_wrs32 :
    obsOf (exec (.wrs32 .vmax (-5)) (readyWith (.ok ⟨0x39#8, 0x12#8, 0x34#8, 0x56#8, 0x78#8⟩))) =
      some [.event .csLow,
        .event (.xchg ⟨0xA7#8, 0xFB#8, 0xFF#8, 0xFF#8, 0xFF#8⟩
          (.ok ⟨0x39#8, 0x12#8, 0x34#8, 0x56#8, 0x78#8⟩)),
        .event .csHigh,
        .result (.ok ⟨false, false, true, true, true, false, false, true⟩
          ⟨0x12#8, 0x34#8, 0x56#8, 0x78#8⟩)] := by decide
-- V5, bus error
theorem test_wru32_bus_error :
    obsOf (exec (.wru32 .xactual 16) (readyWith (.err .first))) =
      some [.event .csLow, .event (.xchg ⟨0xA1#8, 0x10#8, 0#8, 0#8, 0#8⟩ (.err .first)),
        .event .csHigh, .result (.busErr .first)] := rfl
-- V5, never answers
theorem test_rdraw_waits :
    obsOf (exec (.rdraw .xactual) (readyWith .silent)) = some [.event .csLow] ∧
    linesOf (exec (.rdraw .xactual) (readyWith .silent)) = some (.transferring, .low, false) := by decide
-- V5, cancel
theorem test_cancel :
    obsOf (step (waitingWith .cancel)) = some [.event .csLow, .event (.xchg txRead .cancelled)] ∧
    linesOf (step (waitingWith .cancel)) = some (.idle, .undef, false) := by decide
-- V5, started with cs = Low (R125)
theorem test_frame_after_csassert :
    obsOf (exec (.rdraw .xactual) { readyWith (.ok rx16) with cs := .low }) =
      some [.event .csLow, .event (.xchg txRead (.ok rx16)), .event .csHigh,
        .result (.ok (statusDecode 0x00#8) ⟨0x10#8, 0#8, 0#8, 0#8⟩)] ∧
    linesOf (exec (.rdraw .xactual) { readyWith (.ok rx16) with cs := .low }) =
      some (.idle, .high, false) := by decide
-- V5, refused; V6, refused
theorem test_refused_while_undef :
    exec (.rdraw .xactual) cancelledState = .refused .chipSelectUndefined ∧
    exec .csassert cancelledState = .refused .chipSelectUndefined := ⟨rfl, rfl⟩
-- V6
theorem test_csassert :
    linesOf (exec .csassert (readyWith .silent)) = some (.idle, .low, false) ∧
    obsOf (exec .csassert (readyWith .silent)) = some [.event .csLow, .result .done] := by decide
theorem test_csrelease :
    linesOf (exec .csrelease cancelledState) = some (.idle, .high, false) ∧
    obsOf (exec .csrelease cancelledState) =
      some [.event .csLow, .event (.xchg txRead .cancelled), .event .csHigh, .result .done] := by decide
-- V6, with `E` either level
theorem test_enassert_enrelease :
    (Config.enAssertLevel = .low ∧ enOf (exec .enassert (readyWith .silent)) = some .low ∧
      enOf (exec .enrelease (readyWith .silent)) = some .high) ∨
    (Config.enAssertLevel = .high ∧ enOf (exec .enassert (readyWith .silent)) = some .high ∧
      enOf (exec .enrelease (readyWith .silent)) = some .low) := by
  cases h : Config.enAssertLevel with
  | low => exact .inl ⟨rfl, by
      simp [exec, execEnassert, admitted, readyWith, idleWith, State.reset, driveEn, latchOf, enOf,
        State.deliver, h], by
      simp [exec, execEnrelease, admitted, readyWith, idleWith, State.reset, driveEn, latchOf, enOf,
        State.deliver, Level.other, h]⟩
  | high => exact .inr ⟨rfl, by
      simp [exec, execEnassert, admitted, readyWith, idleWith, State.reset, driveEn, latchOf, enOf,
        State.deliver, h], by
      simp [exec, execEnrelease, admitted, readyWith, idleWith, State.reset, driveEn, latchOf, enOf,
        State.deliver, Level.other, h]⟩
-- V6: line 0 High, line 1 Low
theorem test_rddiag0 :
    obsOf (exec .rddiag0 (readyWith .silent)) =
      some [.event (.diag .diag0 (.ok true)), .result (.level true)] := by decide
theorem test_rddiag1 :
    obsOf (exec .rddiag1 (readyWith .silent)) =
      some [.event (.diag .diag1 (.ok false)), .result (.level false)] := by decide
-- V6, sample fails
theorem test_rddiag1_fatal :
    obsOf (exec .rddiag1 (idleWith brokenPins)) = some [.event (.diag .diag1 .ioFail)] ∧
    linesOf (exec .rddiag1 (idleWith brokenPins)) = some (.idle, .high, true) := by decide
-- P6
theorem test_halted_takes_no_step :
    exec .enrelease haltedState = .fault .halted ∧ step haltedState = .fault .halted := ⟨rfl, rfl⟩
-- V6: selector 13 refused
theorem test_reserved_refused :
    step ((readyWith .silent).withFetchWord 8 0x0D) = .refused (.reservedSelector 13#4) := rfl
-- V7, first row: reset while transferring with `en` Low
theorem test_reset_while_transferring :
    linesOf (step { waitingWith .silent with
      en := .low, pins := { busPins .silent with reset := true } }) = some (.idle, .high, false) ∧
    obsOf (step { waitingWith .silent with
      en := .low, pins := { busPins .silent with reset := true } }) = some [] ∧
    enOf (step { waitingWith .silent with
      en := .low, pins := { busPins .silent with reset := true } }) = some .undef := by decide
-- V5, the intermediate states of the success case
theorem test_phases :
    (accept (.rdraw .xactual) txRead (readyWith (.ok rx16))).phase = .selected ∧
    (startExchange (accept (.rdraw .xactual) txRead (readyWith (.ok rx16)))).phase = .transferring ∧
    (completeOk rx16 (waitingWith (.ok rx16))).phase = .released ∧
    (completeOk rx16 (waitingWith (.ok rx16))).cs = .high ∧
    (resultStep (completeOk rx16 (waitingWith (.ok rx16)))).phase = .idle := by decide

/-! ### Witnesses: the hypotheses of the statements can be met -/

theorem ready_readyWith (b : BusTurn) : (readyWith b).Ready := ⟨rfl, rfl, nofun⟩

theorem inv_readyWith (b : BusTurn) : (readyWith b).Inv where
  low_in_transaction := by rintro (h | h) <;> cases h
  high_when_released := nofun
  halted_idle := nofun
  frame_latched := by rintro (h | h) <;> cases h
  answer_latched := nofun
  cs_replayed := rfl
  en_replayed := rfl
  obs_read := rfl

theorem inv_waitingWith (b : BusTurn) : (waitingWith b).Inv where
  low_in_transaction := fun _ => rfl
  high_when_released := nofun
  halted_idle := nofun
  frame_latched := fun _ => ⟨rfl, rfl⟩
  answer_latched := nofun
  cs_replayed := rfl
  en_replayed := rfl
  obs_read := rfl

theorem inv_released : (releasedWith .ok (.ok rx16)).Inv where
  low_in_transaction := by rintro (h | h) <;> cases h
  high_when_released := fun _ => rfl
  halted_idle := nofun
  frame_latched := by rintro (h | h) <;> cases h
  answer_latched := fun _ => ⟨nofun, rfl⟩
  cs_replayed := rfl
  en_replayed := rfl
  obs_read := rfl

theorem inv_manual : manualState.Inv where
  low_in_transaction := by rintro (h | h) <;> cases h
  high_when_released := nofun
  halted_idle := nofun
  frame_latched := by rintro (h | h) <;> cases h
  answer_latched := nofun
  cs_replayed := rfl
  en_replayed := rfl
  obs_read := rfl

theorem inv_cancelled : cancelledState.Inv where
  low_in_transaction := by rintro (h | h) <;> cases h
  high_when_released := nofun
  halted_idle := nofun
  frame_latched := by rintro (h | h) <;> cases h
  answer_latched := nofun
  cs_replayed := rfl
  en_replayed := rfl
  obs_read := rfl

theorem inv_halted : haltedState.Inv where
  low_in_transaction := by rintro (h | h) <;> cases h
  high_when_released := nofun
  halted_idle := fun _ => rfl
  frame_latched := by rintro (h | h) <;> cases h
  answer_latched := nofun
  cs_replayed := rfl
  en_replayed := rfl
  obs_read := rfl

-- both ends of each range, and the pair of R185's last sentence on both sides of zero
theorem witness_WrittenIntegersSurviveSerialisation :
    (-2147483648 : Int) ≤ -2147483648 ∧ (-2147483648 : Int) ≤ 2147483647 ∧
    signedReading (signedPayload (-2147483648)) = -2147483648 ∧
    signedReading (signedPayload 2147483647) = 2147483647 ∧
    unsignedReading (unsignedPayload 0) = 0 ∧
    unsignedReading (unsignedPayload 4294967295) = 4294967295 ∧
    frameOf (.wrs32 .vmax (-1)) = frameOf (.wru32 .vmax 4294967295) ∧
    frameOf (.wrs32 .vmax (-2147483648)) = frameOf (.wru32 .vmax 2147483648) ∧
    frameOf (.wrs32 .vmax 2147483647) = frameOf (.wru32 .vmax 2147483647) ∧
    frameOf (.wrs32 .vmax (-1)) ≠ frameOf (.wru32 .vmax 1) := by decide

theorem witness_AccessorFramesHaveTheirFormats :
    (0x80000000#32).toInt = -2147483648 ∧
    frameOf (.wrs32 .vmax (-2147483648)) = some ⟨0xA7#8, 0#8, 0#8, 0#8, 0x80#8⟩ ∧
    (0xFFFFFFFF#32).toNat = 4294967295 ∧
    frameOf (.wru32 .vmax 4294967295) = some ⟨0xA7#8, 0xFF#8, 0xFF#8, 0xFF#8, 0xFF#8⟩ ∧
    frameOf (.rds32 .vmax) = some ⟨0x27#8, 0#8, 0#8, 0#8, 0#8⟩ := by decide

theorem witness_WirePatternsClassifyFrames :
    frameOf (.rdraw .xactual) = some txRead ∧ formatOf (.rdraw .xactual) = some .txr ∧
    frameOf (.wru32 .xactual 16) = some ⟨0xA1#8, 0x10#8, 0#8, 0#8, 0#8⟩ ∧
    formatOf (.wru32 .xactual 16) = some .txw := by decide

theorem witness_DecodeOfEncodeIsTheOperation :
    WellFormed (.wrs32 .vmax (-2147483648)) ∧ WellFormed (.wru32 .vmax 4294967295) ∧
    WellFormed .rddiag1 := by decide

-- the selectors where the clauses meet: 0, 1, 6, 7, 12, 13 and 15, and a number of no register
theorem witness_OnlyReservedSelectorsNameNoOperation :
    (13 ≤ (13#4).toNat ∧ 13 ≤ (15#4).toNat) ∧
    ((0#4).toNat = 0 ∧ 7 ≤ (7#4).toNat ∧ (12#4).toNat ≤ 12) ∧
    (1 ≤ (1#4).toNat ∧ (6#4).toNat ≤ 6) ∧
    decode ⟨7#4, 0x7F#7, 0#8, Payload.zero⟩ = .ok .csassert ∧
    decode ⟨6#4, 1#7, 0#8, Payload.zero⟩ = .ok (.wru32 .vmax 0) ∧
    decode ⟨1#4, 0x7F#7, 0#8, Payload.zero⟩ = .error (.noSuchRegister 0x7F#7) ∧
    (let c : Command := ⟨13#4, 0#7, 0#8, Payload.zero⟩
     let s := present c (readyWith .silent)
     s.pins.reset = false ∧ s.halted = false ∧ s.phase = .idle ∧ s.pins.command = some c ∧
       decode c = .error (.reservedSelector 13#4)) := by
  refine ⟨by decide, by decide, by decide, rfl, rfl, ?_, rfl, rfl, rfl, rfl, rfl⟩
  simp [decode, test_no_such_register, Except.map]

theorem witness_AcceptStepLatchesTheOperation :
    frameOf (.rdraw .xactual) = some txRead ∧ (readyWith .silent).phase = .idle ∧
    (readyWith .silent).halted = false ∧ (readyWith .silent).cs ≠ .undef ∧
    manualState.cs ≠ .undef := by decide

theorem witness_StartStepHandsTheFrameOver : selectedState.phase = .selected := rfl

theorem witness_CompletionOnSuccess :
    (waitingWith (.ok rx16)).phase = .transferring ∧ (waitingWith (.ok rx16)).pins.bus = .ok rx16 :=
  ⟨rfl, rfl⟩

theorem witness_CompletionOnBusError :
    (waitingWith (.err .first)).phase = .transferring ∧ (waitingWith (.err .first)).pins.bus = .err BusErrorT.first :=
  ⟨rfl, rfl⟩

theorem witness_ResultStepDelivers :
    ((releasedWith .ok (.ok rx16)).phase = .released ∧
      (releasedWith .ok (.ok rx16)).cur.answer = some .ok) ∧
    ((releasedWith (.err .first) (.err .first)).phase = .released ∧
      (releasedWith (.err .first) (.err .first)).cur.answer = some (.err .first)) :=
  ⟨⟨rfl, rfl⟩, rfl, rfl⟩

theorem witness_CancelStepLeavesChipSelectUndefined :
    (waitingWith .cancel).phase = .transferring ∧ (waitingWith .cancel).pins.bus = .cancel ∧
    (waitingWith .cancel).halted = false ∧ (.rddiag0 : Instr) ≠ .csrelease ∧
    selectedState.phase ≠ .transferring := ⟨rfl, rfl, rfl, nofun, nofun⟩

theorem witness_PhaseTransitionsAreTheList :
    (readyWith .silent).phase = .idle ∧ frameOf .csassert = none ∧
    ∃ t, exec .csassert (readyWith .silent) = .next t := ⟨rfl, rfl, _, rfl⟩

theorem witness_BlockStopsOnlyIdleOrWaiting :
    (waitingWith .silent).Inv ∧ (waitingWith .silent).pins.bus = .silent ∧
    (releasedWith .ok (.ok rx16)).Inv := ⟨inv_waitingWith _, rfl, inv_released⟩

-- one state for each turn of the bus
theorem witness_XferSendsItsBytesAndDeliversTheAnswer :
    ∀ b : BusTurn, (readyWith b).Ready ∧ (readyWith b).pins.bus = b :=
  fun b => ⟨ready_readyWith b, rfl⟩

theorem witness_ReadsSendTheReadFrameAndDeliverTheAnswer :
    ((.rds32 .vmax : Instr) = .rdraw .vmax ∨ (.rds32 .vmax : Instr) = .rds32 .vmax ∨
      (.rds32 .vmax : Instr) = .rdu32 .vmax) ∧
    ((readyWith (.ok rx16)).Ready ∧ (readyWith (.ok rx16)).pins.bus = .ok rx16) ∧
    ((readyWith (.err .first)).Ready ∧ (readyWith (.err .first)).pins.bus = .err BusErrorT.first) :=
  ⟨.inr (.inl rfl), ⟨ready_readyWith _, rfl⟩, ready_readyWith _, rfl⟩

-- -2147483648 and 4294967295 are values of a 32-bit vector
theorem witness_WritesSendTheWriteFrameAndDeliverTheAnswer :
    ((.wrs32 .vmax (-2147483648) : Instr) = .wrs32 .vmax (0x80000000#32).toInt ∧
      (.wru32 .vmax 4294967295 : Instr) = .wru32 .vmax (0xFFFFFFFF#32).toNat) ∧
    ((readyWith (.ok rx16)).Ready ∧ (readyWith (.ok rx16)).pins.bus = .ok rx16) ∧
    ((readyWith (.err .first)).Ready ∧ (readyWith (.err .first)).pins.bus = .err BusErrorT.first) :=
  ⟨by decide, ⟨ready_readyWith _, rfl⟩, ready_readyWith _, rfl⟩

theorem witness_WrrawSendsItsBytesVerbatim :
    ((readyWith (.ok rx16)).Ready ∧ (readyWith (.ok rx16)).pins.bus = .ok rx16) ∧
    ((readyWith (.err .first)).Ready ∧ (readyWith (.err .first)).pins.bus = .err BusErrorT.first) :=
  ⟨⟨ready_readyWith _, rfl⟩, ready_readyWith _, rfl⟩

theorem witness_FrameOperationsHaveTheirFunctionForm :
    frameOf (.rdraw .xactual) = some txRead ∧ (readyWith (.ok rx16)).halted = false ∧
    (readyWith (.ok rx16)).phase = .idle ∧ (readyWith (.ok rx16)).cs = .high ∧
    ((∃ rx, (readyWith (.ok rx16)).pins.bus = .ok rx ∧ ExchangeEnd.ok rx16 = .ok rx ∧
      okResult rx16 = .ok (statusDecode rx.b0) ⟨rx.b1, rx.b2, rx.b3, rx.b4⟩)) ∧
    (∃ e, (readyWith (.err .first)).pins.bus = .err e ∧ ExchangeEnd.err BusErrorT.first = .err e ∧
      OpResult.busErr BusErrorT.first = .busErr e) :=
  ⟨rfl, rfl, rfl, rfl, ⟨rx16, rfl, rfl, rfl⟩, .first, rfl, rfl, rfl⟩

theorem witness_SilentBusLeavesTheOperationWaiting :
    frameOf (.rdraw .xactual) = some txRead ∧ (readyWith .silent).Ready ∧
    (readyWith .silent).pins.bus = .silent := ⟨rfl, ready_readyWith _, rfl⟩

theorem witness_CancelledOperationDeliversNothing :
    frameOf (.rdraw .xactual) = some txRead ∧ (readyWith .cancel).Ready ∧
    (readyWith .cancel).pins.bus = .cancel := ⟨rfl, ready_readyWith _, rfl⟩

theorem witness_MemoryShorthandsAreTransactions :
    (readyWith (.ok rx16)).Ready ∧ (readyWith (.ok rx16)).pins.bus = .ok rx16 :=
  ⟨ready_readyWith _, rfl⟩

-- from High and from Low; and a frame operation for the second clause
theorem witness_CsassertDrivesChipSelectLow :
    (readyWith (.ok rx16)).Ready ∧ manualState.Ready ∧ frameOf (.rdraw .xactual) = some txRead ∧
    (readyWith (.ok rx16)).pins.bus = .ok rx16 :=
  ⟨ready_readyWith _, ⟨rfl, rfl, nofun⟩, rfl, rfl⟩

-- also with chip-select undefined
theorem witness_CsreleaseDrivesChipSelectHigh :
    cancelledState.halted = false ∧ cancelledState.phase = .idle ∧ cancelledState.cs = .undef ∧
    (.csassert : Instr) ≠ .csrelease := ⟨rfl, rfl, rfl, nofun⟩

theorem witness_EnableOperationsDriveTheirLevels : (readyWith .silent).Ready := ready_readyWith _

theorem witness_DiagnosticReadsDeliverTheLevel :
    ((readyWith .silent).Ready ∧ (readyWith .silent).pins.diag0 = .ok true ∧
      (readyWith .silent).pins.diag1 = .ok false) ∧
    ((idleWith brokenPins).Ready ∧ (idleWith brokenPins).pins.diag0 = .ioFail ∧
      (idleWith brokenPins).pins.diag1 = .ioFail) :=
  ⟨⟨ready_readyWith _, rfl, rfl⟩, ⟨rfl, rfl, nofun⟩, rfl, rfl⟩

theorem witness_FatalIoHaltsTheBlock :
    (idleWith brokenPins).Ready ∧ (idleWith brokenPins).pins.diag0 = .ioFail ∧
    (idleWith brokenPins).pins.diag1 = .ioFail ∧ haltedState.halted = true ∧
    haltedState.pins.reset = false ∧
    ({ haltedState with pins := { busPins .silent with reset := true } } : State).pins.reset = true :=
  ⟨⟨rfl, rfl, nofun⟩, rfl, rfl, rfl, rfl, rfl⟩

theorem witness_FailedPreconditionsAdmitNothing :
    ((waitingWith .silent).halted = false ∧ (waitingWith .silent).phase ≠ .idle) ∧
    (haltedState.halted = true ∧ haltedState.pins.reset = false) ∧
    (cancelledState.halted = false ∧ cancelledState.phase = .idle ∧ cancelledState.cs = .undef ∧
      (.rddiag0 : Instr) ≠ .csrelease) ∧
    (manualState.halted = false ∧ manualState.phase = .idle ∧ manualState.cs ≠ .undef) :=
  ⟨⟨rfl, nofun⟩, ⟨rfl, rfl⟩, ⟨rfl, rfl, rfl, nofun⟩, rfl, rfl, nofun⟩

theorem witness_EnableIsWrittenOnlyByItsOperations :
    (∃ t, exec .csassert (readyWith .silent) = .next t) ∧ (.csassert : Instr) ≠ .enassert ∧
    (.csassert : Instr) ≠ .enrelease ∧
    (let s := (readyWith .silent).withFetchWord 8 7
     s.pins.reset = false ∧ fetch s = some (.ok .csassert) ∧ ∃ t, step s = .next t) :=
  ⟨⟨_, rfl⟩, nofun, nofun, rfl, rfl, _, rfl⟩

theorem witness_OnlyFatalIoHalts :
    (∃ t, step ((idleWith brokenPins).withFetchWord 8 0xC) = .next t ∧ t.halted = true) ∧
    (∃ t, step { haltedState with pins := { busPins .silent with reset := true } } = .next t) ∧
    haltedState.halted = true := ⟨⟨_, rfl, rfl⟩, ⟨_, rfl⟩, rfl⟩

theorem witness_EnableLineInterlocksNothing :
    (.rdraw .xactual : Instr) ≠ .enassert ∧ (.rdraw .xactual : Instr) ≠ .enrelease := ⟨nofun, nofun⟩

-- two states that differ in everything the statement does not name
theorem witness_NothingButLinesSurvivesAnOperation :
    (let s := readyWith .silent
     let s' : State := { s with txb := txRead, rxb := rx16, cur := ⟨.csassert, some .ok⟩,
                                obs := [.result .done], draws := 7 }
     s'.phase = s.phase ∧ s'.halted = s.halted ∧ s'.cs = s.cs ∧ s'.en = s.en ∧ s'.pins = s.pins ∧
       ∃ t, exec (.rdraw .xactual) s = .next t ∧ t.phase = .transferring) :=
  ⟨rfl, rfl, rfl, rfl, rfl, _, rfl, rfl⟩

theorem witness_StepRunsTheDecodedOperation :
    (let c : Command := ⟨2#4, 1#7, 0#8, Payload.zero⟩
     let s : State := { present c (readyWith .silent) with future := [busPins (.ok rx16)] }
     s.pins.reset = false ∧ s.halted = false ∧ s.phase = .idle ∧ s.pins.command = some c ∧
       decode c = .ok (.rds32 .vmax) ∧ s.future = busPins (.ok rx16) :: [] ∧
       ∃ t, exec (.rds32 .vmax) s = .next t) :=
  ⟨rfl, rfl, rfl, rfl, rfl, rfl, _, rfl⟩

theorem witness_ResetEventInAnyState :
    ({ waitingWith .silent with pins := { busPins .silent with reset := true } } : State).pins.reset
      = true := rfl

theorem witness_SilentBusHangsForEver :
    (let s : State := { waitingWith .silent with future := [busPins .silent, busPins .silent] }
     s.phase = .transferring ∧ s.halted = false ∧ s.pins.waits ∧
       s.future = [busPins .silent, busPins .silent] ∧
       ∀ p ∈ [busPins .silent, busPins .silent], p.waits) :=
  ⟨rfl, rfl, ⟨rfl, rfl⟩, rfl, by simp [Pins.waits, busPins]⟩

-- for each answer, after one silent turn more
theorem witness_FrameOperationsEndAfterAnyDelay (last : Pins) :
    (let c : Command := ⟨1#4, 0#7, 0#8, Payload.zero⟩
     let s : State := { present c (readyWith .silent) with
                        future := [busPins .silent] ++ last :: [] }
     frameOf (.rdraw .xactual) = some txRead ∧ s.Ready ∧ decode c = .ok (.rdraw .xactual) ∧
       s.pins.command = some c ∧ s.pins.waits ∧
       s.future = [busPins .silent] ++ last :: [] ∧ ∀ p ∈ [busPins .silent], p.waits) ∧
    ((busPins (.ok rx16)).bus = .ok rx16 ∧ (busPins (.ok rx16)).reset = false) ∧
    ((busPins (.err .first)).bus = .err .first ∧ (busPins (.err .first)).reset = false) :=
  ⟨⟨rfl, ⟨rfl, rfl, nofun⟩, rfl, rfl, ⟨rfl, rfl⟩, rfl, by simp [Pins.waits, busPins]⟩, ⟨rfl, rfl⟩,
    rfl, rfl⟩

theorem witness_StepsOnlyAppendObservations :
    (∃ t, step (waitingWith (.ok rx16)) = .next t) ∧ (waitingWith (.ok rx16)).pins.reset = false :=
  ⟨⟨_, rfl⟩, rfl⟩

theorem witness_StepKeepsTheInvariant :
    (readyWith .silent).Inv ∧ (∃ t, step ((readyWith .silent).withFetchWord 8 0xC) = .next t) ∧
    (waitingWith .cancel).Inv ∧ (∃ t, step (waitingWith .cancel) = .next t) ∧
    (∃ t, step { haltedState with pins := { busPins .silent with reset := true } } = .next t) ∧
    haltedState.Inv ∧
    (releasedWith .ok (.ok rx16)).Inv ∧ (∃ t, step (releasedWith .ok (.ok rx16)) = .next t) :=
  ⟨inv_readyWith _, ⟨_, rfl⟩, inv_waitingWith _, ⟨_, rfl⟩, ⟨_, rfl⟩, inv_halted, inv_released, _, rfl⟩

theorem witness_PhaseStepKeepsTheInvariant :
    ((readyWith .silent).Inv ∧ (readyWith .silent).Ready ∧ frameOf (.rdraw .xactual) = some txRead) ∧
    ((waitingWith (.ok rx16)).Inv ∧ (waitingWith (.ok rx16)).halted = false) :=
  ⟨⟨inv_readyWith _, ready_readyWith _, rfl⟩, inv_waitingWith _, rfl⟩

/-- What follows in the two states below: a diagnostic read and the drive of the enable line, which touch
neither chip-select nor the bus. -/
def quietTail : List Obs :=
  [.event (.diag .diag0 (.ok true)), .result (.level true), .event .enLow, .result .done]

theorem inv_manual_tail :
    ({ manualState with en := .low, obs := manualState.obs ++ quietTail } : State).Inv where
  low_in_transaction := by rintro (h | h) <;> cases h
  high_when_released := nofun
  halted_idle := nofun
  frame_latched := by rintro (h | h) <;> cases h
  answer_latched := nofun
  cs_replayed := rfl
  en_replayed := rfl
  obs_read := rfl

-- directly after the manual assert, and after other operations
theorem witness_LowWhileIdleIsAManualAssert :
    (manualState.Inv ∧ manualState.phase = .idle ∧ manualState.cs = .low) ∧
    (let s : State := { manualState with en := .low, obs := manualState.obs ++ quietTail }
     s.Inv ∧ s.phase = .idle ∧ s.cs = .low ∧
       s.obs = [] ++ [.event .csLow, .result .done] ++ quietTail ∧
       ∀ o ∈ quietTail, o.touchesBus = false) :=
  ⟨⟨inv_manual, rfl, rfl⟩, inv_manual_tail, rfl, rfl, rfl, by decide⟩

-- after a cancel no operation but CSRELEASE is admitted, so nothing follows the cancelled exchange
theorem witness_UndefinedChipSelectIsACancel : cancelledState.Inv ∧ cancelledState.cs = .undef :=
  ⟨inv_cancelled, rfl⟩

/-- The transaction of `releasedWith` with its result delivered. -/
def deliveredState : State :=
  { readyWith .silent with
    obs := [.event .csLow, .event (.xchg txRead (.ok rx16)), .event .csHigh, .result (okResult rx16)] }

theorem inv_delivered : deliveredState.Inv where
  low_in_transaction := by rintro (h | h) <;> cases h
  high_when_released := nofun
  halted_idle := nofun
  frame_latched := by rintro (h | h) <;> cases h
  answer_latched := nofun
  cs_replayed := rfl
  en_replayed := rfl
  obs_read := rfl

-- with the result still owed, and with it delivered
theorem witness_EveryExchangeIsInsideAChipSelectInterval :
    ((releasedWith .ok (.ok rx16)).Inv ∧
      (releasedWith .ok (.ok rx16)).obs =
        [.event .csLow] ++ .event (.xchg txRead (.ok rx16)) :: [.event .csHigh]) ∧
    (deliveredState.Inv ∧
      deliveredState.obs =
        [.event .csLow] ++ .event (.xchg txRead (.ok rx16)) ::
          [.event .csHigh, .result (okResult rx16)]) ∧
    answeredResult (.ok rx16) = some (okResult rx16) :=
  ⟨⟨inv_released, rfl⟩, ⟨inv_delivered, rfl⟩, rfl⟩

end Sys2Proof.Machine
end

-- ==== Proofs: the serialisation of words (spec/00_scope.md R13) ====
section
/-! PROOFS. `ser32` and `de32` as arithmetic on bytes, their two inverse laws, and the ranges of the two
readings (spec/00_scope.md R13). -/

namespace Sys2Proof

@[simp] theorem ser32_p0_toNat (v : Word) : (ser32 v).p0.toNat = v.toNat % 256 := by
  simp [ser32, BitVec.extractLsb'_toNat]

@[simp] theorem ser32_p1_toNat (v : Word) : (ser32 v).p1.toNat = v.toNat / 256 % 256 := by
  simp [ser32, BitVec.extractLsb'_toNat, Nat.shiftRight_eq_div_pow]

@[simp] theorem ser32_p2_toNat (v : Word) : (ser32 v).p2.toNat = v.toNat / 65536 % 256 := by
  simp [ser32, BitVec.extractLsb'_toNat, Nat.shiftRight_eq_div_pow]

/-- The top byte needs no reduction: what is above the lower 24 bits of a word is below 256. -/
@[simp] theorem ser32_p3_toNat (v : Word) : (ser32 v).p3.toNat = v.toNat / 16777216 := by
  have hv := v.isLt
  simp only [ser32, BitVec.extractLsb'_toNat, Nat.shiftRight_eq_div_pow]
  omega

@[simp] theorem de32_ser32 (v : Word) : de32 (ser32 v) = v := by
  apply BitVec.eq_of_toNat_eq
  rw [de32_toNat, ser32_p0_toNat, ser32_p1_toNat, ser32_p2_toNat, ser32_p3_toNat]
  omega

theorem Payload.eq_of_toNat_eq {p q : Payload} (h0 : p.p0.toNat = q.p0.toNat)
    (h1 : p.p1.toNat = q.p1.toNat) (h2 : p.p2.toNat = q.p2.toNat)
    (h3 : p.p3.toNat = q.p3.toNat) : p = q := by
  obtain ⟨p0, p1, p2, p3⟩ := p
  obtain ⟨q0, q1, q2, q3⟩ := q
  exact (Payload.mk.injEq ..).mpr ⟨BitVec.eq_of_toNat_eq h0, BitVec.eq_of_toNat_eq h1,
    BitVec.eq_of_toNat_eq h2, BitVec.eq_of_toNat_eq h3⟩

/-- The bytes of a payload are the base-256 digits of the word it makes, and digits are unique. -/
@[simp] theorem ser32_de32 (p : Payload) : ser32 (de32 p) = p := by
  have h0 := p.p0.isLt
  have h1 := p.p1.isLt
  have h2 := p.p2.isLt
  apply Payload.eq_of_toNat_eq
  · rw [ser32_p0_toNat, de32_toNat]
    omega
  · rw [ser32_p1_toNat, de32_toNat]
    omega
  · rw [ser32_p2_toNat, de32_toNat]
    omega
  · rw [ser32_p3_toNat, de32_toNat]
    omega

theorem neg_le_signedReading (p : Payload) : -2147483648 ≤ signedReading p :=
  BitVec.le_toInt (de32 p)

theorem signedReading_le (p : Payload) : signedReading p ≤ 2147483647 :=
  Int.le_of_lt_add_one (BitVec.toInt_lt (x := de32 p))

theorem unsignedReading_le (p : Payload) : unsignedReading p ≤ 4294967295 :=
  Nat.le_of_lt_succ (de32 p).isLt

/-- Settles O1: both laws of a word and of a payload from the byte values, the readings by definition
and by the range of a 32-bit word, and the source's `-5` by evaluation. -/
theorem serialisationIsLittleEndianAndInvertible :
    Obligations.SerialisationIsLittleEndianAndInvertible :=
  ⟨fun v => ⟨⟨ser32_p0_toNat v, ser32_p1_toNat v, ser32_p2_toNat v, ser32_p3_toNat v⟩,
      de32_ser32 v⟩,
    fun p => ⟨de32_toNat p, ser32_de32 p, rfl, rfl, neg_le_signedReading p, signedReading_le p,
      unsignedReading_le p⟩,
    by decide⟩

end Sys2Proof
end

-- ==== Proofs: the state after reset (spec/10_state.md R37) ====
section
/-! PROOFS. The values of the reset state, one per state element the spec gives a value, and what an empty
observation says to the outside (spec/10_state.md R37, R40). -/

namespace Sys2Proof.Machine

@[simp] theorem State.reset_phase : State.reset.phase = .idle := rfl
@[simp] theorem State.reset_cs : State.reset.cs = .high := rfl
@[simp] theorem State.reset_en : State.reset.en = .undef := rfl
@[simp] theorem State.reset_halted : State.reset.halted = false := rfl
@[simp] theorem State.reset_obs : State.reset.obs = [] := rfl

theorem State.trace_of_obs_nil {s : State} (h : s.obs = []) : s.trace = [] := by
  rw [State.trace, h, List.filterMap_nil]

theorem State.results_of_obs_nil {s : State} (h : s.obs = []) : s.results = [] := by
  rw [State.results, h, List.filterMap_nil]

/-- R261: the first operation is admitted, since chip-select stands High, which is not undefined. -/
theorem State.ready_reset : State.reset.Ready :=
  ⟨State.reset_halted, State.reset_phase, by rw [State.reset_cs]; decide⟩

/-- Settles O43: the latches and flags are the reset values, trace and results those of an empty
observation, and a block that is idle, not halted and has chip-select High is ready. -/
theorem resetStateHasTheSpecValues : Obligations.ResetStateHasTheSpecValues :=
  ⟨State.reset_phase, State.reset_cs, State.reset_en, State.reset_halted,
    State.trace_of_obs_nil State.reset_obs, State.results_of_obs_nil State.reset_obs,
    State.ready_reset⟩

end Sys2Proof.Machine
end

-- ==== Proofs: the register table (spec/20_memory.md R51 to R53) ====
section
/-! PROOFS. The address function case by case, its injectivity, and the address the table leaves out
(spec/20_memory.md R52). -/

namespace Sys2Proof

@[simp] theorem addr_xactual : addr .xactual = 0x21#7 := rfl
@[simp] theorem addr_vmax : addr .vmax = 0x27#7 := rfl

/-- What the filter of the table leaves to a further register. -/
theorem addr_other_constraints (k : Fin Config.furtherRegs.length) :
    (addr (.other k)).toNat ≤ 0x73 ∧ addr (.other k) ≠ addr .xactual ∧
      addr (.other k) ≠ addr .vmax ∧ addr (.other k) ≠ Config.gap :=
  furtherRegs_mem (addr_other_mem k)

theorem addr_other_ne_xactual (k : Fin Config.furtherRegs.length) :
    addr (.other k) ≠ addr .xactual :=
  have ⟨_, hne, _, _⟩ := addr_other_constraints k
  hne

theorem addr_other_ne_vmax (k : Fin Config.furtherRegs.length) : addr (.other k) ≠ addr .vmax :=
  have ⟨_, _, hne, _⟩ := addr_other_constraints k
  hne

theorem addr_other_ne_gap (k : Fin Config.furtherRegs.length) : addr (.other k) ≠ Config.gap :=
  have ⟨_, _, _, hne⟩ := addr_other_constraints k
  hne

theorem addr_other_inj {j k : Fin Config.furtherRegs.length} :
    addr (.other j) = addr (.other k) ↔ j = k :=
  furtherRegs_nodup.injective_get.eq_iff

theorem addr_toNat_le (r : Reg) : (addr r).toNat ≤ 0x73 := by
  cases r with
  | xactual => decide
  | vmax => decide
  | other k => exact (addr_other_constraints k).1

/-- R52 (b): the two named registers differ, neither is in the list of further ones, and that list has
no duplicates. -/
theorem addr_injective : Function.Injective addr := by
  intro r s h
  cases r with
  | xactual =>
    cases s with
    | xactual => rfl
    | vmax => exact absurd h (by decide)
    | other k => exact absurd h.symm (addr_other_ne_xactual k)
  | vmax =>
    cases s with
    | xactual => exact absurd h (by decide)
    | vmax => rfl
    | other k => exact absurd h.symm (addr_other_ne_vmax k)
  | other j =>
    cases s with
    | xactual => exact absurd h (addr_other_ne_xactual j)
    | vmax => exact absurd h (addr_other_ne_vmax j)
    | other k => rw [addr_other_inj.1 h]

/-- R52 (a): a register is known by its address, and there are finitely many of those. -/
theorem finite_reg : Finite Reg :=
  .of_injective (BitVec.toFin ∘ addr) (BitVec.toFin_injective.comp addr_injective)

/-- R52 (c): an address has seven bits, so the byte it is widened to has bit 7 clear. -/
theorem setWidth_addr_bit7_clear (a : Addr) : (a.setWidth 8 : Byte).getLsbD 7 = false := by
  rw [BitVec.getLsbD_setWidth, BitVec.getLsbD_of_ge a 7 (Nat.le_refl 7), Bool.and_false]

/-- The three ranges that `Config.gapIndex` counts through. -/
theorem gap_toNat_cases : Config.gap.toNat < 0x21 ∨
    (0x21 < Config.gap.toNat ∧ Config.gap.toNat < 0x27) ∨
    (0x27 < Config.gap.toNat ∧ Config.gap.toNat ≤ 0x73) := by
  have hk := Config.gapIndex.isLt
  unfold Config.gap
  dsimp only
  split
  · rw [BitVec.toNat_ofNat]
    omega
  · split
    · rw [BitVec.toNat_ofNat]
      omega
    · rw [BitVec.toNat_ofNat]
      omega

theorem gap_toNat_le : Config.gap.toNat ≤ 0x73 := by
  have := gap_toNat_cases
  omega

/-- The count skips the two named addresses, and the table's filter keeps the gap out of the rest. -/
theorem addr_ne_gap (r : Reg) : addr r ≠ Config.gap := by
  have hgap := gap_toNat_cases
  cases r with
  | xactual => exact fun h => absurd (h ▸ hgap) (by decide)
  | vmax => exact fun h => absurd (h ▸ hgap) (by decide)
  | other k => exact addr_other_ne_gap k

/-- Settles O4: the constraints of R52 one by one; the address that no register has is the gap. -/
theorem registerTableMeetsItsConstraints : Obligations.RegisterTableMeetsItsConstraints :=
  ⟨finite_reg, addr_injective, fun r => ⟨addr_toNat_le r, setWidth_addr_bit7_clear (addr r)⟩,
    ⟨Config.gap, gap_toNat_le, addr_ne_gap⟩, addr_xactual, addr_vmax⟩

end Sys2Proof
end

-- ==== Proofs: the frames of the accessors (spec/30_encoding.md R81 to R87) ====
section
/-! PROOFS. The two command bytes of a register, its two command frames, and the payload of a written
integer when that integer is a reading of a word (spec/30_encoding.md R81 to R87). -/

namespace Sys2Proof

@[simp] theorem cmdByte_false (r : Reg) : cmdByte false r = (addr r).setWidth 8 := BitVec.zero_or

/-- R85 writes the flag first, R82 the address. -/
theorem cmdByte_true (r : Reg) : cmdByte true r = (addr r).setWidth 8 ||| 0x80#8 :=
  BitVec.or_comm ..

theorem readFrame_eq (r : Reg) : readFrame r = ⟨(addr r).setWidth 8, 0#8, 0#8, 0#8, 0#8⟩ := by
  rw [readFrame, cmdByte_false]
  rfl

theorem writeFrame_eq (r : Reg) (p : Payload) :
    writeFrame r p = ⟨(addr r).setWidth 8 ||| 0x80#8, p.p0, p.p1, p.p2, p.p3⟩ := by
  rw [writeFrame, cmdByte_true]
  rfl

/-- R86: WRS32 of the signed reading of a word sends that word. -/
@[simp] theorem signedPayload_toInt (v : Word) : signedPayload v.toInt = ser32 v := by
  rw [signedPayload, BitVec.ofInt_toInt]

/-- R86: WRU32 of the unsigned reading of a word sends that word. -/
@[simp] theorem unsignedPayload_toNat (v : Word) : unsignedPayload v.toNat = ser32 v := by
  rw [unsignedPayload, BitVec.ofNat_toNat, BitVec.setWidth_eq]

theorem frameOf_wrs32_toInt (r : Reg) (v : Word) :
    frameOf (.wrs32 r v.toInt) = some (writeFrame r (ser32 v)) := by
  rw [frameOf, signedPayload_toInt]

theorem frameOf_wru32_toNat (r : Reg) (v : Word) :
    frameOf (.wru32 r v.toNat) = some (writeFrame r (ser32 v)) := by
  rw [frameOf, unsignedPayload_toNat]

/-- Settles O5: every accessor sends the read or the write frame of its register, and the payload of a
written integer is the serialised word. -/
theorem accessorFramesHaveTheirFormats : Obligations.AccessorFramesHaveTheirFormats := by
  intro r
  refine ⟨?reads, setWidth_addr_bit7_clear (addr r), ?raw, ?signed, ?unsigned⟩
  case reads =>
    rintro i (rfl | rfl | rfl) <;> exact congrArg some (readFrame_eq r)
  case raw => exact fun p => congrArg some (writeFrame_eq r p)
  case signed =>
    rintro _ v rfl
    rw [frameOf_wrs32_toInt, writeFrame_eq]
    rfl
  case unsigned =>
    rintro _ v rfl
    rw [frameOf_wru32_toNat, writeFrame_eq]
    rfl

end Sys2Proof
end

-- ==== Proofs: the accessors as transfers (spec/30_encoding.md R95) ====
section
/-! PROOFS. A frame operation's outcome depends on the operation through its transmit frame alone, but for
`cur` (spec/30_encoding.md R95, spec/40_transaction_engine.md R110). -/

namespace Sys2Proof.Machine

/-- Admission looks at the state before the operation only. -/
theorem mapNext_admitted (f : State → State) (u : Bool) (s t : State) :
    mapNext f (admitted u s t) = admitted u s (f t) := by
  simp only [admitted, apply_ite (mapNext f), mapNext_fault, mapNext_refused, mapNext_next]

/-- What the phase machine makes of an accepted frame names the operation in `cur` alone: while the
exchange waits `cur` holds it, and when the exchange has ended it is unspecified. -/
theorem settle_accept_op_irrelevant (i j : Instr) (tx : Frame) (s : State) (x : Latched) :
    ({ settle (accept i tx s) with cur := x } : State) =
      { settle (accept j tx s) with cur := x } := by
  rw [settle_accept, settle_accept]
  cases s.pins.bus with
  | silent => rfl
  | ok rx => rfl
  | err e => rfl
  | cancel => rfl

/-- Two frame operations with one transmit frame have one outcome but for `cur`, in every state. -/
theorem exec_eq_of_frameOf_eq {i j : Instr} {tx : Frame} (hi : frameOf i = some tx)
    (hj : frameOf j = some tx) (s : State) (x : Latched) :
    mapNext (fun t => { t with cur := x }) (exec i s) =
      mapNext (fun t => { t with cur := x }) (exec j s) := by
  rw [exec_of_frame hi, exec_of_frame hj, frameOp, frameOp, mapNext_admitted, mapNext_admitted,
    settle_accept_op_irrelevant i j]

/-- Settles O29: each pair of operations has one transmit frame. -/
theorem accessorsAreDerivedFromXfer : Obligations.AccessorsAreDerivedFromXfer := by
  intro r s x
  refine ⟨?rdraw, ?rds32, ?rdu32, fun p => ?wrraw, fun v => ⟨?wrs32, ?wru32⟩⟩
  case rdraw => exact exec_eq_of_frameOf_eq (tx := readFrame r) rfl rfl s x
  case rds32 => exact exec_eq_of_frameOf_eq (tx := readFrame r) rfl rfl s x
  case rdu32 => exact exec_eq_of_frameOf_eq (tx := readFrame r) rfl rfl s x
  case wrraw => exact exec_eq_of_frameOf_eq (tx := writeFrame r p) rfl rfl s x
  case wrs32 => exact exec_eq_of_frameOf_eq (frameOf_wrs32_toInt r v) rfl s x
  case wru32 => exact exec_eq_of_frameOf_eq (frameOf_wru32_toNat r v) rfl s x

end Sys2Proof.Machine
end

-- ==== Proofs: the steps of the phase machine (spec/40_transaction_engine.md R114 to R116, R126) ====
section
/-! PROOFS. The completion steps as record updates, the result step by the answer `cur` records, and the
list of phase transitions (spec/40_transaction_engine.md R114 to R116, R126). -/

namespace Sys2Proof.Machine

theorem completeOk_eq (rx : Frame) (s : State) :
    completeOk rx s =
      { s with
        rxb := rx
        obs := s.obs ++ [.event (.xchg s.txb (.ok rx)), .event .csHigh]
        cs := .high
        cur := ⟨s.cur.op, some .ok⟩
        phase := .released
        txb := Config.freeFrame s.draws
        draws := s.draws + 1 } := by
  ext1
  case obs => exact List.append_assoc ..
  all_goals rfl

theorem completeErr_eq (e : BusErrorT) (s : State) :
    completeErr e s =
      { s with
        obs := s.obs ++ [.event (.xchg s.txb (.err e)), .event .csHigh]
        cs := .high
        cur := ⟨s.cur.op, some (.err e)⟩
        phase := .released
        txb := Config.freeFrame s.draws
        rxb := Config.freeFrame (s.draws + 1)
        draws := s.draws + 1 + 1 } := by
  ext1
  case obs => exact List.append_assoc ..
  all_goals rfl

/-- Settles O15: the step of a transaction that waits is one look at the bus, here the completion on
success. -/
theorem completionOnSuccess : Obligations.CompletionOnSuccess := by
  intro s rx hp hb
  rw [phaseStep_transferring hp, pollBus_ok hb]
  exact ⟨_, _, completeOk_eq rx s⟩

/-- Settles O16: the step of a transaction that waits is one look at the bus, here the completion on bus
error. -/
theorem completionOnBusError : Obligations.CompletionOnBusError := by
  intro s e hp hb
  rw [phaseStep_transferring hp, pollBus_err hb]
  exact ⟨_, _, _, completeErr_eq e s⟩

/-- Settles O17: the step of a released transaction is the result step, by the answer `cur` records. -/
theorem resultStepDelivers : Obligations.ResultStepDelivers := by
  intro s hp
  rw [phaseStep_released hp]
  exact ⟨fun ha => ⟨_, _, _, _, resultStep_ok ha⟩, fun e ha => ⟨_, _, _, _, resultStep_err ha⟩⟩

/-- The result step ends the transaction when an answer is recorded, and does nothing when none is. -/
theorem resultStep_phase (s : State) :
    (resultStep s).phase = .idle ∨ (s.cur.answer = none ∧ resultStep s = s) := by
  match ha : s.cur.answer with
  | some .ok =>
    rw [resultStep_ok ha]
    exact .inl rfl
  | some (.err e) =>
    rw [resultStep_err ha]
    exact .inl rfl
  | none => exact .inr ⟨rfl, by rw [resultStep, ha]⟩

/-- One look at the bus completes the exchange, ends it or leaves it waiting. -/
theorem pollBus_phase (s : State) :
    (pollBus s).phase = .released ∨ (pollBus s).phase = .idle ∨ pollBus s = s := by
  cases hb : s.pins.bus with
  | silent => exact .inr (.inr (pollBus_silent hb))
  | ok rx =>
    rw [pollBus_ok hb]
    exact .inl rfl
  | err e =>
    rw [pollBus_err hb]
    exact .inl rfl
  | cancel =>
    rw [pollBus_cancel hb]
    exact .inr (.inl rfl)

/-- R126, first part: the transitions of the phase machine, one phase after the other. -/
theorem phaseStep_phase_mem (s : State) :
    (phaseStep s).phase = s.phase ∨
    (s.phase, (phaseStep s).phase) ∈
      [(Phase.selected, Phase.transferring), (.transferring, .released), (.released, .idle),
        (.transferring, .idle)] := by
  cases hp : s.phase with
  | idle => exact .inl (by rw [phaseStep_idle hp, hp])
  | selected => simp [phaseStep_selected hp]
  | transferring =>
    rw [phaseStep_transferring hp]
    obtain h | h | h := pollBus_phase s <;> simp [h, hp]
  | released =>
    rw [phaseStep_released hp]
    obtain h | ⟨-, h⟩ := resultStep_phase s <;> simp [h, hp]

@[simp] theorem sampleDiag_phase (line : DiagLine) (s : State) :
    (sampleDiag line s).phase = s.phase := by
  cases h : s.pins.diag line with
  | ok b => rw [sampleDiag_ok h]; rfl
  | ioFail => rw [sampleDiag_ioFail h]; rfl

/-- R126, last sentence: a line operation that is performed leaves the phase. -/
theorem lineOp_phase {i : Instr} {s t : State} (hi : frameOf i = none) (h : exec i s = .next t) :
    t.phase = s.phase := by
  obtain ⟨-, -, ⟨tx, htx, -, -⟩ | ⟨-, -, rfl⟩ | ⟨-, rfl⟩ | ⟨-, -, rfl⟩ | ⟨-, -, rfl⟩ | ⟨-, -, rfl⟩ |
    ⟨-, -, rfl⟩⟩ := exec_next_cases h
  · rw [hi] at htx
    cases htx
  all_goals simp

/-- Settles O19: the phase machine phase by phase, and the line operations by what they do. -/
theorem phaseTransitionsAreTheList : Obligations.PhaseTransitionsAreTheList := by
  refine ⟨phaseStep_phase_mem, fun s => phaseStep_idle, accept_phase, fun i s t hi h => ?_⟩
  have hidle : s.phase = .idle := (exec_next_cases h).2.1
  exact ⟨hidle, (lineOp_phase hi h).trans hidle⟩

end Sys2Proof.Machine
end

-- ==== Proofs: admission to the command port (spec/40_transaction_engine.md R122, R124) ====
section
/-! PROOFS. Every operation is one admission, CSRELEASE the only one that chip-select undefined does not
stop; and what stands on the ports matters to the phase machine through the bus alone
(spec/40_transaction_engine.md R120, R122, R124). -/

namespace Sys2Proof.Machine

theorem exec_csrelease_eq_admitted (s : State) :
    exec .csrelease s = admitted true s ((driveCs .high s).deliver .done) := rfl

/-- R124: every operation but CSRELEASE asks for the same admission. -/
theorem exec_eq_admitted {i : Instr} (hi : i ≠ .csrelease) (s : State) :
    ∃ t, exec i s = admitted false s t := by
  cases i with
  | csrelease => exact absurd rfl hi
  | _ => exact ⟨_, rfl⟩

theorem exec_eq_admitted_any (i : Instr) (s : State) : ∃ u t, exec i s = admitted u s t := by
  by_cases hi : i = .csrelease
  · subst hi
    exact ⟨_, _, exec_csrelease_eq_admitted s⟩
  · exact ⟨false, exec_eq_admitted hi s⟩

theorem exec_halted (i : Instr) {s : State} (hh : s.halted = true) : exec i s = .fault .halted := by
  obtain ⟨u, t, h⟩ := exec_eq_admitted_any i s
  rw [h, admitted_halted hh]

theorem exec_busy (i : Instr) {s : State} (hh : s.halted = false) (hp : s.phase ≠ .idle) :
    exec i s = .refused .portBusy := by
  obtain ⟨u, t, h⟩ := exec_eq_admitted_any i s
  rw [h, admitted_busy hh hp]

theorem exec_of_ready (i : Instr) {s : State} (h : s.Ready) : ∃ t, exec i s = .next t := by
  obtain ⟨u, t, he⟩ := exec_eq_admitted_any i s
  exact ⟨t, he.trans (admitted_of_ready h)⟩

theorem exec_undef {i : Instr} (hi : i ≠ .csrelease) {s : State} (hh : s.halted = false)
    (hp : s.phase = .idle) (hc : s.cs = .undef) : exec i s = .refused .chipSelectUndefined := by
  obtain ⟨t, h⟩ := exec_eq_admitted hi s
  rw [h, admitted_undef hh hp hc]

/-- R202: CSRELEASE runs in an idle block whatever chip-select is. -/
theorem exec_csrelease {s : State} (hh : s.halted = false) (hp : s.phase = .idle) :
    exec .csrelease s = .next ((driveCs .high s).deliver .done) :=
  admitted_eq_next.2 ⟨hh, hp, fun _ => rfl, rfl⟩

theorem step_halted {s : State} (hh : s.halted = true) (hr : s.pins.reset = false) :
    step s = .fault .halted := by
  simp [step, hh, hr]

/-- The same block with something else on its ports. -/
def State.withPins (s : State) (p : Pins) : State := { s with pins := p }

@[simp] theorem withPins_phase (s : State) (p : Pins) : (s.withPins p).phase = s.phase := rfl
@[simp] theorem withPins_cur (s : State) (p : Pins) : (s.withPins p).cur = s.cur := rfl
@[simp] theorem withPins_pins (s : State) (p : Pins) : (s.withPins p).pins = p := rfl
@[simp] theorem withPins_self (s : State) : s.withPins s.pins = s := rfl

theorem startExchange_withPins (s : State) (p : Pins) :
    startExchange (s.withPins p) = (startExchange s).withPins p := rfl

theorem applyReset_withPins (s : State) (p : Pins) :
    applyReset (s.withPins p) = (applyReset s).withPins p := rfl

/-- The outside moves on from what stood on the ports and keeps nothing of it. -/
theorem advance_withPins (s : State) (p : Pins) : advance (s.withPins p) = advance s := rfl

theorem resultStep_withPins (s : State) (p : Pins) :
    resultStep (s.withPins p) = (resultStep s).withPins p := by
  simp only [resultStep, withPins_cur]
  match s.cur.answer with
  | some .ok => rfl
  | some (.err _) => rfl
  | none => rfl

theorem pollBus_withPins {s : State} {p : Pins} (hbus : p.bus = s.pins.bus) :
    pollBus (s.withPins p) = (pollBus s).withPins p := by
  simp only [pollBus, withPins_pins, hbus]
  cases s.pins.bus with
  | silent => rfl
  | ok rx => rfl
  | err e => rfl
  | cancel => rfl

/-- The phase machine looks at the ports in `Transferring` only, and there at the bus only. -/
theorem phaseStep_withPins {s : State} {p : Pins}
    (hbus : s.phase = .transferring → p.bus = s.pins.bus) :
    phaseStep (s.withPins p) = (phaseStep s).withPins p := by
  simp only [phaseStep, withPins_phase]
  cases hp : s.phase with
  | idle => rfl
  | selected => exact startExchange_withPins s p
  | transferring => exact pollBus_withPins (hbus hp)
  | released => exact resultStep_withPins s p

/-- A step of the phase machine leaves what stands on the ports. -/
@[simp] theorem phaseStep_pins (s : State) : (phaseStep s).pins = s.pins := by
  simpa using congrArg State.pins (phaseStep_withPins (s := s) (p := s.pins) fun _ => rfl)

theorem settle_withPins {s : State} {p : Pins} (hbus : p.bus = s.pins.bus) :
    settle (s.withPins p) = (settle s).withPins p := by
  have hstep (t : State) (ht : t.pins = s.pins) :
      phaseStep (t.withPins p) = (phaseStep t).withPins p :=
    phaseStep_withPins fun _ => by rw [hbus, ht]
  rw [settle, settle, hstep s rfl, hstep (phaseStep s) (by simp),
    hstep (phaseStep (phaseStep s)) (by simp)]

/-- R120: a busy block looks at the bus and at the reset input, and at nothing else on the ports. -/
theorem step_withPins_of_busy {s : State} {p : Pins} (hp : s.phase ≠ .idle)
    (hbus : p.bus = s.pins.bus) (hreset : p.reset = s.pins.reset) :
    step (s.withPins p) = step s := by
  cases hr : s.pins.reset with
  | true =>
    rw [step_of_reset hr, step_of_reset (hreset.trans hr), applyReset_withPins, advance_withPins]
  | false =>
    have hr' : (s.withPins p).pins.reset = false := hreset.trans hr
    cases hh : s.halted with
    | true => rw [step_halted hh hr, step_halted (s := s.withPins p) hh hr']
    | false =>
      rw [step_of_busy hr hh hp, step_of_busy (s := s.withPins p) hr' hh hp, settle_withPins hbus,
        advance_withPins]

/-- Settles O36: each clause is admission's answer, and a busy block does not look at the command port. -/
theorem failedPreconditionsAdmitNothing : Obligations.FailedPreconditionsAdmitNothing := by
  refine ⟨?port, ?busy, ?halted, ?undef, ?release, ?ready⟩
  case port => exact fun s c hp => step_withPins_of_busy hp rfl rfl
  case busy => exact fun i s hh hp => exec_busy i hh hp
  case halted => exact fun i s hh => ⟨exec_halted i hh, step_halted hh⟩
  case undef => exact fun i s hh hp hc hi => exec_undef hi hh hp hc
  case release => exact fun s hh hp => ⟨_, exec_csrelease hh hp⟩
  case ready => exact fun i s hh hp hc => exec_of_ready i ⟨hh, hp, hc⟩

/-- Settles O18: the cancelled state is idle with chip-select undefined, where admission lets CSRELEASE
through alone; and outside `Transferring` the phase machine does not look at the ports. -/
theorem cancelStepLeavesChipSelectUndefined : Obligations.CancelStepLeavesChipSelectUndefined := by
  refine ⟨fun s hp hb => ?_, fun s hp => phaseStep_withPins fun h => absurd h hp⟩
  rw [phaseStep_transferring hp, pollBus_cancel hb]
  refine ⟨⟨_, _, _, _, rfl⟩, fun hh i => ⟨?_, fun hi => exec_undef hi hh rfl rfl⟩⟩
  rintro rfl
  exact ⟨_, exec_csrelease hh rfl⟩

end Sys2Proof.Machine
end

-- ==== Proofs: the frame operations by the turn of the bus (spec/40_transaction_engine.md R111) ====
section
/-! PROOFS. What a frame operation presented to a ready block does, one lemma per turn of the bus, for every
operation that has a transmit frame; XFER is one of them (spec/40_transaction_engine.md R111 to R117, R121
to R123). -/

namespace Sys2Proof.Machine

section
variable {i : Instr} {tx : Frame} {s : State}

theorem exec_frame_of_ready (hf : frameOf i = some tx) (hs : s.Ready) :
    exec i s = .next (settle (accept i tx s)) := by
  rw [exec_of_frame hf, frameOp, admitted_of_ready hs]

theorem exec_frame_ok (hf : frameOf i = some tx) (hs : s.Ready) {rx : Frame}
    (hb : s.pins.bus = .ok rx) :
    ∃ t, exec i s = .next t ∧ FrameOpDone s t tx (.ok rx) (okResult rx) := by
  refine ⟨_, exec_frame_of_ready hf hs, ?_⟩
  rw [settle_accept, hb]
  exact ⟨by simp [finishOk], rfl, rfl, rfl, rfl, rfl, rfl⟩

theorem exec_frame_err (hf : frameOf i = some tx) (hs : s.Ready) {e : BusErrorT}
    (hb : s.pins.bus = .err e) :
    ∃ t, exec i s = .next t ∧ FrameOpDone s t tx (.err e) (.busErr e) := by
  refine ⟨_, exec_frame_of_ready hf hs, ?_⟩
  rw [settle_accept, hb]
  exact ⟨by simp [finishErr], rfl, rfl, rfl, rfl, rfl, rfl⟩

theorem exec_frame_silent (hf : frameOf i = some tx) (hs : s.Ready) (hb : s.pins.bus = .silent) :
    ∃ t, exec i s = .next t ∧ FrameOpWaits s t i tx := by
  refine ⟨_, exec_frame_of_ready hf hs, ?_⟩
  rw [settle_accept, hb]
  exact ⟨rfl, rfl, rfl, rfl, rfl, rfl, rfl, rfl, rfl, rfl⟩

theorem exec_frame_cancel (hf : frameOf i = some tx) (hs : s.Ready) (hb : s.pins.bus = .cancel) :
    ∃ t, exec i s = .next t ∧ FrameOpCancelled s t tx := by
  refine ⟨_, exec_frame_of_ready hf hs, ?_⟩
  rw [settle_accept, hb]
  exact ⟨by simp, rfl, rfl, rfl, rfl, rfl, rfl⟩

end

/-- R111: XFER's frame is the host's command byte and payload. -/
theorem frameOf_xfer (c : Byte) (p : Payload) :
    frameOf (.xfer c p) = some ⟨c, p.p0, p.p1, p.p2, p.p3⟩ := rfl

/-- Settles O21: XFER is a frame operation, and its outcome is that of every frame operation at each turn
of the bus. -/
theorem xferSendsItsBytesAndDeliversTheAnswer :
    Obligations.XferSendsItsBytesAndDeliversTheAnswer := by
  intro c p s hs
  have hf := frameOf_xfer c p
  exact ⟨rfl, fun _ => exec_frame_ok hf hs, fun _ => exec_frame_err hf hs, exec_frame_silent hf hs,
    exec_frame_cancel hf hs⟩

end Sys2Proof.Machine
end

-- ==== Proofs: reading the observation (spec/40_transaction_engine.md R117) ====
section
/-! PROOFS. The reader of the observation, inverted: where it stood before an exchange and what it can meet
after one, as long as nothing it met was wrong (spec/40_transaction_engine.md R117, spec/10_state.md R40). -/

namespace Sys2Proof.Machine

@[simp] theorem Reading.next_wrong (o : Obs) : Reading.wrong.next o = .wrong := rfl

/-- What is wrong stays wrong. -/
@[simp] theorem foldl_next_wrong (os : List Obs) : os.foldl Reading.next .wrong = .wrong := by
  induction os with
  | nil => rfl
  | cons o os ih => rw [List.foldl_cons, Reading.next_wrong, ih]

/-- A reader that ends at nothing wrong met nothing wrong on the way. -/
theorem next_ne_wrong_of_foldl {q : Reading} {o : Obs} {os : List Obs}
    (h : (o :: os).foldl Reading.next q ≠ .wrong) : q.next o ≠ .wrong := by
  intro hw
  rw [List.foldl_cons, hw, foldl_next_wrong] at h
  exact h rfl

/-- An answered exchange is read after a chip-select Low, and leaves its result to come. -/
theorem Reading.next_exchange {q : Reading} {tx : Frame} {ans : ExchangeEnd} {r : OpResult}
    (ha : answeredResult ans = some r) (h : q.next (.event (.xchg tx ans)) ≠ .wrong) :
    q = .afterLow ∧ q.next (.event (.xchg tx ans)) = .exchanged r := by
  cases q with
  | afterLow =>
    cases ans with
    | ok rx => exact ⟨rfl, congrArg Reading.exchanged (Option.some.inj ha)⟩
    | err e => exact ⟨rfl, congrArg Reading.exchanged (Option.some.inj ha)⟩
    | cancelled => cases ha
  | _ => exact absurd rfl h

/-- After an answered exchange nothing but chip-select High is read. -/
theorem Reading.eq_csHigh_of_exchanged {r : OpResult} {o : Obs}
    (h : (Reading.exchanged r).next o ≠ .wrong) : o = .event .csHigh := by
  match o with
  | .event .csHigh => rfl
  | .event .csLow | .event .enLow | .event .enHigh | .event (.xchg _ _) | .event (.diag _ _)
  | .result _ => exact absurd rfl h

/-- Where a result is owed nothing but that result is read. -/
theorem Reading.eq_result_of_owes {r : OpResult} {o : Obs}
    (h : (Reading.owes r).next o ≠ .wrong) : o = .result r := by
  match o with
  | .result r' =>
    by_cases hr : r' = r
    · rw [hr]
    · exact absurd (if_neg hr) h
  | .event _ => exact absurd rfl h

/-- A reader comes to stand after chip-select Low by reading one between two operations. -/
theorem Reading.eq_csLow_of_next_eq_afterLow {q : Reading} {o : Obs} (h : q.next o = .afterLow) :
    o = .event .csLow := by
  revert h
  fun_cases Reading.next q o with
  | case1 => exact fun _ => rfl
  | _ => simp [*]

/-- An observation after which the reader stands after chip-select Low ends in one. -/
theorem eq_append_csLow_of_readObs {os : List Obs} (h : readObs os = .afterLow) :
    ∃ b, os = b ++ [.event .csLow] := by
  induction os using List.reverseRecOn with
  | nil => cases h
  | append_singleton b o _ =>
    rw [readObs, List.foldl_append, List.foldl_cons, List.foldl_nil] at h
    exact ⟨b, by rw [Reading.eq_csLow_of_next_eq_afterLow h]⟩

/-- What an answered exchange is followed by: chip-select High and the result, or an end of the observation
where the reader still waits for one of them. -/
theorem after_exchange {r : OpResult} {os : List Obs}
    (h : os.foldl Reading.next (.exchanged r) ≠ .wrong) :
    os = [] ∨ os = [.event .csHigh] ∨ ∃ os', os = .event .csHigh :: .result r :: os' := by
  match os with
  | [] => exact .inl rfl
  | o :: os =>
    obtain rfl := Reading.eq_csHigh_of_exchanged (next_ne_wrong_of_foldl h)
    match os with
    | [] => exact .inr (.inl rfl)
    | o' :: os' =>
      have h' : (o' :: os').foldl Reading.next (.owes r) ≠ .wrong := h
      obtain rfl := Reading.eq_result_of_owes (next_ne_wrong_of_foldl h')
      exact .inr (.inr ⟨os', rfl⟩)

/-- Where the invariant lets the reader stand: owed a result in `Released`, and in the other phases after
chip-select Low or at no operation at all. -/
theorem State.Inv.expectedReading_cases {s : State} (hs : s.Inv) :
    (s.phase = .released ∧ ∃ r, s.expectedReading = .owes r) ∨
      s.expectedReading = .afterLow ∨ s.expectedReading = .between ∨ s.expectedReading = .faulted := by
  unfold State.expectedReading
  cases hp : s.phase with
  | idle => cases s.halted <;> simp
  | selected => exact .inr (.inl rfl)
  | transferring => exact .inr (.inl rfl)
  | released =>
    match ha : s.cur.answer with
    | some .ok => exact .inl ⟨rfl, _, rfl⟩
    | some (.err _) => exact .inl ⟨rfl, _, rfl⟩
    | none => exact absurd ha (hs.answer_latched hp).1

/-- No state of the invariant shows the outside anything wrong. -/
theorem State.Inv.expectedReading_ne_wrong {s : State} (hs : s.Inv) : s.expectedReading ≠ .wrong := by
  obtain ⟨-, r, h⟩ | h | h | h := hs.expectedReading_cases <;> rw [h] <;> nofun

/-- No state of the invariant lies between an exchange and its chip-select High. -/
theorem State.Inv.expectedReading_ne_exchanged {s : State} (hs : s.Inv) (r : OpResult) :
    s.expectedReading ≠ .exchanged r := by
  obtain ⟨-, r, h⟩ | h | h | h := hs.expectedReading_cases <;> rw [h] <;> nofun

/-- A result is owed in `Released` only. -/
theorem State.Inv.released_of_owes {s : State} (hs : s.Inv) {r : OpResult}
    (ho : s.expectedReading = .owes r) : s.phase = .released := by
  obtain ⟨hp, -⟩ | h | h | h := hs.expectedReading_cases
  · exact hp
  all_goals exact absurd (h.symm.trans ho) nofun

/-- Settles O52: the reader of the observation, cut at the exchange: it stood after a chip-select Low, and
what it can meet then is chip-select High and the result, unless the observation ends before, which the
invariant allows in `Released` after chip-select High alone. -/
theorem everyExchangeIsInsideAChipSelectInterval :
    Obligations.EveryExchangeIsInsideAChipSelectInterval := by
  intro s before after tx ans r hs hobs ha
  have hwrong := hs.expectedReading_ne_wrong
  have hread : (.event (.xchg tx ans) :: after : List Obs).foldl Reading.next (readObs before) =
      s.expectedReading := by
    rw [← hs.obs_read, hobs, readObs, readObs, List.foldl_append]
  obtain ⟨hlow, hnext⟩ :=
    Reading.next_exchange ha (next_ne_wrong_of_foldl (hread ▸ hwrong))
  rw [List.foldl_cons, hnext] at hread
  refine ⟨eq_append_csLow_of_readObs hlow, ?_⟩
  obtain rfl | rfl | ⟨os, rfl⟩ := after_exchange (hread ▸ hwrong)
  · exact absurd hread.symm (hs.expectedReading_ne_exchanged r)
  · exact ⟨[], rfl, .inl ⟨rfl, hs.released_of_owes hread.symm⟩⟩
  · exact ⟨_, rfl, .inr ⟨os, rfl⟩⟩

end Sys2Proof.Machine
end

-- ==== Proofs: the status byte (spec/41_status_decode.md R140 to R149) ====
section
/-! PROOFS. A mask of one bit reads that bit, and the decoder by the masks of the flag table
(spec/41_status_decode.md R141). -/

namespace Sys2Proof.Machine

/-- ANDed with the mask of one bit, a vector is not zero exactly when that bit is 1. -/
theorem and_twoPow_bne_zero {w i : Nat} (x : BitVec w) (hi : i < w) :
    (x &&& BitVec.twoPow w i != 0#w) = x.getLsbD i := by
  rw [BitVec.and_twoPow]
  cases x.getLsbD i with
  | false => simp
  | true =>
    have hmask : BitVec.twoPow w i ≠ 0#w := fun h => by
      have hbit := congrArg (BitVec.getLsbD · i) h
      simp [hi] at hbit
    simpa using hmask

/-- R142 to R149: each mask of the table is `1 << bit` of the bit the layout gives the flag. -/
theorem statusDecode_eq_masks (b : Byte) : statusDecode b =
    ⟨b &&& 0x80#8 != 0#8, b &&& 0x40#8 != 0#8, b &&& 0x20#8 != 0#8, b &&& 0x10#8 != 0#8,
      b &&& 0x08#8 != 0#8, b &&& 0x04#8 != 0#8, b &&& 0x02#8 != 0#8, b &&& 0x01#8 != 0#8⟩ := by
  have hbit (i : Nat) (hi : i < 8) : b.getLsbD i = (b &&& BitVec.twoPow 8 i != 0#8) :=
    (and_twoPow_bne_zero b hi).symm
  exact (Status.mk.injEq ..).mpr
    ⟨hbit 7 (by decide), hbit 6 (by decide), hbit 5 (by decide), hbit 4 (by decide),
      hbit 3 (by decide), hbit 2 (by decide), hbit 1 (by decide), hbit 0 (by decide)⟩

/-- R142: bit 7 is the top bit, so it alone says in which half of the byte values a byte lies. -/
theorem statusDecode_stopLeft_iff (b : Byte) : (statusDecode b).stopLeft = true ↔ 0x80 ≤ b.toNat := by
  have htop : (statusDecode b).stopLeft = decide (0x80 ≤ b.toNat) := BitVec.getLsbD_last b
  rw [htop, decide_eq_true_iff]

/-- Settles O8: every byte by the masks and by its top bit; the table's nine example bytes by evaluation. -/
theorem statusFlagsAreTheirBits : Obligations.StatusFlagsAreTheirBits :=
  ⟨fun b => ⟨statusDecode_eq_masks b, statusDecode_stopLeft_iff b⟩, by decide⟩

end Sys2Proof.Machine
end

-- ==== Proofs: the read accessors (spec/42_read_accessors.md R161 to R163) ====
section
/-! PROOFS. The one transmit frame of the three read accessors, and the two readings of a delivered answer by
its bytes (spec/42_read_accessors.md R161 to R163). -/

namespace Sys2Proof.Machine

/-- R161 to R163: the three reads send one frame, the read frame of their register. -/
theorem frameOf_of_read {r : Reg} {i : Instr} (hi : i = .rdraw r ∨ i = .rds32 r ∨ i = .rdu32 r) :
    frameOf i = some ⟨(addr r).setWidth 8, 0#8, 0#8, 0#8, 0#8⟩ := by
  obtain rfl | rfl | rfl := hi <;> exact congrArg some (readFrame_eq r)

/-- R162: byte 4 of the receive frame is the most significant byte of the signed reading. -/
theorem okResult_signed? (rx : Frame) :
    (okResult rx).signed? = some (rx.b4 ++ rx.b3 ++ rx.b2 ++ rx.b1).toInt := rfl

/-- R163: byte 1 of the receive frame is the lowest base-256 digit of the unsigned reading. -/
theorem okResult_unsigned? (rx : Frame) :
    (okResult rx).unsigned? = some (rx.b1.toNat + 256 * rx.b2.toNat + 65536 * rx.b3.toNat
      + 16777216 * rx.b4.toNat) :=
  congrArg some (de32_toNat rx.payload)

/-- Settles O22: a read is a frame operation with the read frame, so it has the outcome of every frame
operation; the readings are those of the bytes delivered. -/
theorem readsSendTheReadFrameAndDeliverTheAnswer :
    Obligations.ReadsSendTheReadFrameAndDeliverTheAnswer := by
  intro r i s hi hs
  have hf := frameOf_of_read hi
  refine ⟨⟨rfl, rfl, rfl⟩, fun rx hb => ?ok, fun _ => exec_frame_err hf hs⟩
  case ok =>
    obtain ⟨t, hexec, hdone⟩ := exec_frame_ok hf hs hb
    exact ⟨t, okResult rx, hexec, hdone, rfl, okResult_signed? rx, okResult_unsigned? rx⟩

end Sys2Proof.Machine
end

-- ==== Proofs: the write accessors (spec/43_write_accessors.md R181 to R183) ====
section
/-! PROOFS. The transmit frame of a raw write, and the one transmit frame of the three writes of a word
(spec/43_write_accessors.md R181 to R183). -/

namespace Sys2Proof.Machine

/-- R181: the four bytes go out as they were given, `p0` as frame byte 1. -/
theorem frameOf_wrraw (r : Reg) (p : Payload) :
    frameOf (.wrraw r p) = some ⟨(addr r).setWidth 8 ||| 0x80#8, p.p0, p.p1, p.p2, p.p3⟩ :=
  congrArg some (writeFrame_eq r p)

/-- R182, R183: the typed writes of a word send the frame of the raw write of its serialisation. -/
theorem frameOf_of_write {r : Reg} {v : Word} {i : Instr}
    (hi : i = .wrraw r (ser32 v) ∨ i = .wrs32 r v.toInt ∨ i = .wru32 r v.toNat) :
    frameOf i = frameOf (.wrraw r (ser32 v)) := by
  obtain rfl | rfl | rfl := hi
  · rfl
  · exact frameOf_wrs32_toInt r v
  · exact frameOf_wru32_toNat r v

/-- Settles O23: each of the three writes sends the raw write's frame of the serialised word, whose bytes
are the word's from the least significant one on, so it has the outcome of every frame operation. -/
theorem writesSendTheWriteFrameAndDeliverTheAnswer :
    Obligations.WritesSendTheWriteFrameAndDeliverTheAnswer := by
  intro r v i s hi hs
  have hf := (frameOf_of_write hi).trans (frameOf_wrraw r (ser32 v))
  exact ⟨⟨rfl, rfl⟩, fun _ => exec_frame_ok hf hs, fun _ => exec_frame_err hf hs⟩

/-- Settles O24: a raw write is a frame operation with the bytes as given, so it has the outcome of every
frame operation. -/
theorem wrrawSendsItsBytesVerbatim : Obligations.WrrawSendsItsBytesVerbatim := by
  intro r p s hs
  have hf := frameOf_wrraw r p
  exact ⟨rfl, fun _ => exec_frame_ok hf hs, fun _ => exec_frame_err hf hs⟩

end Sys2Proof.Machine
end

-- ==== Proofs: the line operations (spec/44_line_control.md R201 to R208) ====
section
/-! PROOFS. What a drive or a sample that delivers its result leaves, as one update of the state, and the
six line operations of a ready block (spec/44_line_control.md R201, R202, R204 to R208). -/

namespace Sys2Proof.Machine

/-- R201, R202: a drive of chip-select changes the latch and is seen with its result, and that is all. -/
theorem driveCs_deliver_done (l : Level) (s : State) :
    (driveCs l s).deliver .done =
      { s with cs := latchOf l, obs := s.obs ++ [.event (csEvent l), .result .done] } := by
  simp [State.ext_iff]

/-- R124: an idle block that is not halted is ready once chip-select is at a level, whatever was seen. -/
theorem ready_of_cs_driven {s : State} (hh : s.halted = false) (hp : s.phase = .idle) {c : Latch}
    (hc : c ≠ .undef) (os : List Obs) : State.Ready { s with cs := c, obs := os } :=
  ⟨hh, hp, hc⟩

/-- R205, R206: a drive of the enable line changes the latch and is seen with its result, and that is
all. -/
theorem driveEn_deliver_done (l : Level) (s : State) :
    (driveEn l s).deliver .done =
      { s with en := latchOf l, obs := s.obs ++ [.event (enEvent l), .result .done] } := by
  simp [State.ext_iff]

/-- R207, R208: a good sample is seen with its raw level, and that is all. -/
theorem sampleDiag_ok_eq_update {line : DiagLine} {s : State} {b : Bool} (h : s.pins.diag line = .ok b) :
    sampleDiag line s =
      { s with obs := s.obs ++ [.event (.diag line (.ok b)), .result (.level b)] } := by
  rw [sampleDiag_ok h]
  simp [State.ext_iff]

/-- R207, R208, R229: a failed sample is seen without a result and halts the block, and that is all. -/
theorem sampleDiag_ioFail_eq_update {line : DiagLine} {s : State} (h : s.pins.diag line = .ioFail) :
    sampleDiag line s =
      { s with halted := true, obs := s.obs ++ [.event (.diag line .ioFail)] } :=
  sampleDiag_ioFail h

section
variable {s : State} (hs : s.Ready)
include hs

theorem exec_csassert : exec .csassert s = .next ((driveCs .low s).deliver .done) :=
  admitted_of_ready hs

theorem exec_enassert :
    exec .enassert s = .next ((driveEn Config.enAssertLevel s).deliver .done) :=
  admitted_of_ready hs

theorem exec_enrelease :
    exec .enrelease s = .next ((driveEn Config.enAssertLevel.other s).deliver .done) :=
  admitted_of_ready hs

theorem exec_rddiag0 : exec .rddiag0 s = .next (sampleDiag .diag0 s) := admitted_of_ready hs

theorem exec_rddiag1 : exec .rddiag1 s = .next (sampleDiag .diag1 s) := admitted_of_ready hs

end

/-- Settles O31: CSASSERT is one drive of chip-select, and the state it leaves is ready, so that a frame
operation answered there ends as every frame operation does. -/
theorem csassertDrivesChipSelectLow : Obligations.CsassertDrivesChipSelectLow := by
  refine ⟨rfl, rfl, fun s hs => ⟨?_, fun i tx rx hf hb => ?_⟩⟩
  · rw [exec_csassert hs, driveCs_deliver_done]
    rfl
  · obtain ⟨hhalted, hidle, -⟩ := hs
    have hready := ready_of_cs_driven hhalted hidle (c := .low) nofun
      (s.obs ++ [.event .csLow, .result .done])
    obtain ⟨t, hexec, hdone⟩ := exec_frame_ok hf hready hb
    exact ⟨t, hexec, hdone.cs_high⟩

/-- Settles O32: CSRELEASE is one drive of chip-select, admitted where chip-select undefined stops every
other operation, and the state it leaves is ready for all of them. -/
theorem csreleaseDrivesChipSelectHigh : Obligations.CsreleaseDrivesChipSelectHigh := by
  refine ⟨rfl, rfl, fun s hh hp => ⟨?_, fun hc i hi => exec_undef hi hh hp hc, fun i => ?_⟩⟩
  · rw [exec_csrelease hh hp, driveCs_deliver_done]
    rfl
  · exact exec_of_ready i (ready_of_cs_driven hh hp (c := .high) nofun _)

/-- Settles O33: both operations are one drive of the enable line, for either value of the parameter. -/
theorem enableOperationsDriveTheirLevels : Obligations.EnableOperationsDriveTheirLevels := by
  refine ⟨rfl, rfl, rfl, rfl, fun s hs => ?_⟩
  rw [exec_enassert hs, exec_enrelease hs, driveEn_deliver_done, driveEn_deliver_done]
  cases Config.enAssertLevel with
  | low => exact ⟨rfl, rfl⟩
  | high => exact ⟨rfl, rfl⟩

/-- Settles O34: each operation is one sample of its own line, which leaves what its answer says. -/
theorem diagnosticReadsDeliverTheLevel : Obligations.DiagnosticReadsDeliverTheLevel := by
  refine ⟨rfl, rfl, rfl, rfl, fun s hs => ?_⟩
  rw [exec_rddiag0 hs, exec_rddiag1 hs]
  exact ⟨fun _ h => congrArg _ (sampleDiag_ok_eq_update h),
    fun _ h => congrArg _ (sampleDiag_ok_eq_update h),
    fun h => congrArg _ (sampleDiag_ioFail_eq_update h),
    fun h => congrArg _ (sampleDiag_ioFail_eq_update h)⟩

end Sys2Proof.Machine
end

-- ==== Proofs: the fatal exception (spec/60_exceptions.md R229, R232) ====
section
/-! PROOFS. The way out of the halted state, and the block that a failed sample halts
(spec/60_exceptions.md R229, R232). -/

namespace Sys2Proof.Machine

/-- R232: a reset leads out of every state, the halted ones included. -/
theorem step_reset_clears_halted {s : State} (hr : s.pins.reset = true) :
    ∃ t, step s = .next t ∧ t.halted = false :=
  ⟨_, step_of_reset hr, by rw [advance_halted, applyReset_halted]⟩

/-- Settles O35: each diagnostic read is one sample of its line, which halts the block when it fails; a
halted block admits no operation and takes no step but a reset, which clears `halted`. -/
theorem fatalIoHaltsTheBlock : Obligations.FatalIoHaltsTheBlock := by
  refine fun s hs => ⟨fun h => ?diag0, fun h => ?diag1, fun t ht => ?halted⟩
  case diag0 => rw [exec_rddiag0 hs, sampleDiag_ioFail_eq_update (line := .diag0) h]
  case diag1 => rw [exec_rddiag1 hs, sampleDiag_ioFail_eq_update (line := .diag1) h]
  case halted =>
    exact ⟨fun i => exec_halted i ht, step_halted ht, step_reset_clears_halted⟩

end Sys2Proof.Machine
end

-- ==== Proofs: reset in any state (spec/70_reset_and_hazards.md R260) ====
section
/-! PROOFS. A step with the reset input applied: the reset event, then the outside moves on, which touches
nothing that reset has set (spec/70_reset_and_hazards.md R260). -/

namespace Sys2Proof.Machine

/-- R260, R37: the reset event forgets what was observed, and the next look at the ports adds nothing. -/
theorem advance_applyReset_obs (s : State) : (advance (applyReset s)).obs = [] := by
  rw [advance_obs, applyReset_obs]

/-- Settles O42: the reset input decides the step before the phase and `halted` are looked at, and each
state element keeps its reset value when the outside moves on. -/
theorem resetEventInAnyState : Obligations.ResetEventInAnyState := by
  intro s hr
  refine ⟨advance (applyReset s), step_of_reset hr, ?phase, ?cs, ?en, ?halted,
    State.trace_of_obs_nil (advance_applyReset_obs s),
    State.results_of_obs_nil (advance_applyReset_obs s)⟩
  case phase => rw [advance_phase, applyReset_phase]
  case cs => rw [advance_cs, applyReset_cs]
  case en => rw [advance_en, applyReset_en]
  case halted => rw [advance_halted, applyReset_halted]

end Sys2Proof.Machine
end

-- ==== Proofs: the invariant (spec/10_state.md R39) ====
section
/-! PROOFS. One rule for the observations a step makes, one rule for each phase a step can lead to, and by
these that the accept step, every step of the phase machine, every line operation and so every step of the
machine keep the invariant (spec/10_state.md R39, spec/40_transaction_engine.md R112 to R116, R122). -/

namespace Sys2Proof.Machine

theorem expectedReading_of_idle {s : State} (hp : s.phase = .idle) :
    s.expectedReading = if s.halted then .faulted else .between := by
  rw [State.expectedReading, hp]

theorem expectedReading_of_ready {s : State} (hh : s.halted = false) (hp : s.phase = .idle) :
    s.expectedReading = .between := by
  rw [expectedReading_of_idle hp, hh]
  rfl

theorem expectedReading_of_halted {s : State} (hh : s.halted = true) (hp : s.phase = .idle) :
    s.expectedReading = .faulted := by
  rw [expectedReading_of_idle hp, hh]
  rfl

/-- The phases in which the exchange is not answered yet. -/
theorem expectedReading_of_unanswered {s : State} (hp : s.phase = .selected ∨ s.phase = .transferring) :
    s.expectedReading = .afterLow := by
  obtain h | h := hp <;> rw [State.expectedReading, h]

theorem expectedReading_of_ok {s : State} (hp : s.phase = .released) (ha : s.cur.answer = some .ok) :
    s.expectedReading = .owes (okResult s.rxb) := by
  rw [State.expectedReading, hp, ha]

theorem expectedReading_of_err {s : State} {e : BusErrorT} (hp : s.phase = .released)
    (ha : s.cur.answer = some (.err e)) : s.expectedReading = .owes (.busErr e) := by
  rw [State.expectedReading, hp, ha]

/-- From `s` to `t` the outside saw `new`, which accounts for both latches and for where the reader of the
observation must stand. -/
structure Shows (s t : State) (new : List Obs) : Prop where
  obs : t.obs = s.obs ++ new
  cs : t.cs = (new.filterMap Obs.event?).foldl csAfter s.cs
  en : t.en = (new.filterMap Obs.event?).foldl enAfter s.en
  reading : new.foldl Reading.next s.expectedReading = t.expectedReading

section
variable {s t : State} {new : List Obs}

theorem Shows.trace (h : Shows s t new) : t.trace = s.trace ++ new.filterMap Obs.event? := by
  rw [State.trace, h.obs, List.filterMap_append]
  rfl

theorem Shows.cs_replayed (h : Shows s t new) (hs : s.Inv) : t.cs = replayCs t.trace := by
  rw [h.cs, hs.cs_replayed, h.trace, replayCs, replayCs, List.foldl_append]

theorem Shows.en_replayed (h : Shows s t new) (hs : s.Inv) : t.en = replayEn t.trace := by
  rw [h.en, hs.en_replayed, h.trace, replayEn, replayEn, List.foldl_append]

theorem Shows.obs_read (h : Shows s t new) (hs : s.Inv) : readObs t.obs = t.expectedReading := by
  rw [← h.reading, ← hs.obs_read, h.obs, readObs, readObs, List.foldl_append]

/-- A state that is idle meets the invariant when the observation accounts for it. -/
theorem State.Inv.of_idle (hs : s.Inv) (h : Shows s t new) (hp : t.phase = .idle) : t.Inv where
  low_in_transaction := by rw [hp]; nofun
  high_when_released := by rw [hp]; nofun
  halted_idle := fun _ => hp
  frame_latched := by rw [hp]; nofun
  answer_latched := by rw [hp]; nofun
  cs_replayed := h.cs_replayed hs
  en_replayed := h.en_replayed hs
  obs_read := h.obs_read hs

/-- The same for a state between two operations. -/
theorem State.Inv.of_between (hs : s.Inv) (hobs : t.obs = s.obs ++ new)
    (hcs : t.cs = (new.filterMap Obs.event?).foldl csAfter s.cs)
    (hen : t.en = (new.filterMap Obs.event?).foldl enAfter s.en)
    (hread : new.foldl Reading.next s.expectedReading = .between) (hh : t.halted = false)
    (hp : t.phase = .idle) : t.Inv :=
  hs.of_idle ⟨hobs, hcs, hen, hread.trans (expectedReading_of_ready hh hp).symm⟩ hp

/-- R39 (a), R112: until the bus answers, chip-select is Low and `TXB` the frame of the operation. -/
theorem State.Inv.of_unanswered (hs : s.Inv) (h : Shows s t new)
    (hp : t.phase = .selected ∨ t.phase = .transferring) (hh : t.halted = false) (hcs : t.cs = .low)
    (hf : frameOf t.cur.op = some t.txb) (ha : t.cur.answer = none) : t.Inv where
  low_in_transaction := fun _ => hcs
  high_when_released := by obtain hp | hp := hp <;> rw [hp] <;> nofun
  halted_idle := by rw [hh]; nofun
  frame_latched := fun _ => ⟨hf, ha⟩
  answer_latched := by obtain hp | hp := hp <;> rw [hp] <;> nofun
  cs_replayed := h.cs_replayed hs
  en_replayed := h.en_replayed hs
  obs_read := h.obs_read hs

/-- R39 (b), R114, R115: once the bus has answered, chip-select is High and `cur` records the answer. -/
theorem State.Inv.of_released (hs : s.Inv) (h : Shows s t new) (hp : t.phase = .released)
    (hh : t.halted = false) (hcs : t.cs = .high) (ha : t.cur.answer ≠ none)
    (hf : isFrameOp t.cur.op = true) : t.Inv where
  low_in_transaction := by rw [hp]; nofun
  high_when_released := fun _ => hcs
  halted_idle := by rw [hh]; nofun
  frame_latched := by rw [hp]; nofun
  answer_latched := fun _ => ⟨ha, hf⟩
  cs_replayed := h.cs_replayed hs
  en_replayed := h.en_replayed hs
  obs_read := h.obs_read hs

end

/-- R39 (e): a block that is not idle is not halted. -/
theorem State.Inv.not_halted {s : State} (hs : s.Inv) (hp : s.phase ≠ .idle) : s.halted = false :=
  Bool.eq_false_iff.2 fun hh => hp (hs.halted_idle hh)

theorem State.Inv.accept {i : Instr} {tx : Frame} {s : State} (hs : s.Inv) (hr : s.Ready)
    (hf : frameOf i = some tx) : (accept i tx s).Inv := by
  obtain ⟨hh, hp, -⟩ := hr
  have hshows : Shows s (Machine.accept i tx s) [.event .csLow] :=
    ⟨rfl, rfl, rfl, by rw [expectedReading_of_ready hh hp]; rfl⟩
  exact hs.of_unanswered hshows (.inl rfl) hh rfl hf rfl

theorem State.Inv.startExchange {s : State} (hs : s.Inv) (hp : s.phase = .selected) :
    (startExchange s).Inv := by
  obtain ⟨hf, ha⟩ := hs.frame_latched (.inl hp)
  have hshows : Shows s (Machine.startExchange s) [] :=
    ⟨(List.append_nil _).symm, rfl, rfl, expectedReading_of_unanswered (.inl hp)⟩
  exact hs.of_unanswered hshows (.inr rfl) (hs.not_halted (by rw [hp]; nofun))
    (hs.low_in_transaction (.inl hp)) hf ha

theorem State.Inv.completeOk {s : State} (hs : s.Inv) (hp : s.phase = .transferring) (rx : Frame) :
    (completeOk rx s).Inv := by
  have hf : isFrameOp s.cur.op = true := Option.isSome_of_mem (hs.frame_latched (.inr hp)).1
  have hshows : Shows s (Machine.completeOk rx s) [.event (.xchg s.txb (.ok rx)), .event .csHigh] :=
    ⟨by simp, rfl, rfl, by rw [expectedReading_of_unanswered (.inr hp)]; rfl⟩
  exact hs.of_released hshows rfl (hs.not_halted (by rw [hp]; nofun)) rfl nofun hf

theorem State.Inv.completeErr {s : State} (hs : s.Inv) (hp : s.phase = .transferring) (e : BusErrorT) :
    (completeErr e s).Inv := by
  have hf : isFrameOp s.cur.op = true := Option.isSome_of_mem (hs.frame_latched (.inr hp)).1
  have hshows : Shows s (Machine.completeErr e s) [.event (.xchg s.txb (.err e)), .event .csHigh] :=
    ⟨by simp, rfl, rfl, by rw [expectedReading_of_unanswered (.inr hp)]; rfl⟩
  exact hs.of_released hshows rfl (hs.not_halted (by rw [hp]; nofun)) rfl nofun hf

theorem State.Inv.cancelExchange {s : State} (hs : s.Inv) (hp : s.phase = .transferring) :
    (cancelExchange s).Inv := by
  have hh := hs.not_halted (by rw [hp]; nofun)
  have hread : [.event (.xchg s.txb .cancelled)].foldl Reading.next s.expectedReading = .between := by
    rw [expectedReading_of_unanswered (.inr hp)]
    rfl
  exact hs.of_between rfl rfl rfl hread hh rfl

/-- Where a result is owed, delivering it brings the reader between two operations. -/
theorem Reading.next_owes_result (r : OpResult) : (Reading.owes r).next (.result r) = .between :=
  if_pos rfl

/-- R116: the result step delivers what the reader is owed. -/
theorem State.Inv.resultStep {s : State} (hs : s.Inv) (hp : s.phase = .released) :
    (resultStep s).Inv := by
  have hh := hs.not_halted (by rw [hp]; nofun)
  match ha : s.cur.answer with
  | some .ok =>
    rw [resultStep_ok ha]
    refine hs.of_between (new := [.result (okResult s.rxb)]) rfl rfl rfl ?_ hh rfl
    rw [expectedReading_of_ok hp ha]
    exact Reading.next_owes_result _
  | some (.err e) =>
    rw [resultStep_err ha]
    refine hs.of_between (new := [.result (.busErr e)]) rfl rfl rfl ?_ hh rfl
    rw [expectedReading_of_err hp ha]
    exact Reading.next_owes_result _
  | none => exact absurd ha (hs.answer_latched hp).1

theorem State.Inv.pollBus {s : State} (hs : s.Inv) (hp : s.phase = .transferring) : (pollBus s).Inv := by
  cases hb : s.pins.bus with
  | silent => rwa [pollBus_silent hb]
  | ok rx => rw [pollBus_ok hb]; exact hs.completeOk hp rx
  | err e => rw [pollBus_err hb]; exact hs.completeErr hp e
  | cancel => rw [pollBus_cancel hb]; exact hs.cancelExchange hp

/-- Every transition of R126 keeps the invariant. -/
theorem State.Inv.phaseStep {s : State} (hs : s.Inv) : (phaseStep s).Inv := by
  cases hp : s.phase with
  | idle => rwa [phaseStep_idle hp]
  | selected => rw [phaseStep_selected hp]; exact hs.startExchange hp
  | transferring => rw [phaseStep_transferring hp]; exact hs.pollBus hp
  | released => rw [phaseStep_released hp]; exact hs.resultStep hp

theorem State.Inv.settle {s : State} (hs : s.Inv) : (settle s).Inv := hs.phaseStep.phaseStep.phaseStep

/-- R201, R202: a drive of chip-select is seen, and so is its result. -/
theorem State.Inv.driveCs_done {s : State} (hs : s.Inv) (hh : s.halted = false) (hp : s.phase = .idle)
    (l : Level) : ((driveCs l s).deliver .done).Inv := by
  rw [driveCs_deliver_done]
  refine hs.of_between (new := [.event (csEvent l), .result .done]) rfl ?cs ?en ?reading hh hp
  case cs => cases l <;> rfl
  case en => cases l <;> rfl
  case reading =>
    rw [expectedReading_of_ready hh hp]
    cases l <;> rfl

/-- R205, R206: a drive of the enable line is seen, and so is its result. -/
theorem State.Inv.driveEn_done {s : State} (hs : s.Inv) (hh : s.halted = false) (hp : s.phase = .idle)
    (l : Level) : ((driveEn l s).deliver .done).Inv := by
  rw [driveEn_deliver_done]
  refine hs.of_between (new := [.event (enEvent l), .result .done]) rfl ?cs ?en ?reading hh hp
  case cs => cases l <;> rfl
  case en => cases l <;> rfl
  case reading =>
    rw [expectedReading_of_ready hh hp]
    cases l <;> rfl

/-- R207, R208, R229: a sample is seen, with its level when it is good, and halts the block when not. -/
theorem State.Inv.sampleDiag {s : State} (hs : s.Inv) (hh : s.halted = false) (hp : s.phase = .idle)
    (line : DiagLine) : (sampleDiag line s).Inv := by
  cases h : s.pins.diag line with
  | ok b =>
    rw [sampleDiag_ok_eq_update h]
    refine hs.of_between (new := [.event (.diag line (.ok b)), .result (.level b)]) rfl rfl rfl ?_ hh hp
    rw [expectedReading_of_ready hh hp]
    exact Reading.next_owes_result _
  | ioFail =>
    rw [sampleDiag_ioFail_eq_update h]
    refine hs.of_idle (new := [.event (.diag line .ioFail)]) ⟨rfl, rfl, rfl, ?_⟩ hp
    rw [expectedReading_of_ready hh hp]
    exact Eq.symm (expectedReading_of_halted rfl hp)

theorem State.Inv.exec {i : Instr} {s t : State} (hs : s.Inv) (h : exec i s = .next t) : t.Inv := by
  obtain ⟨hh, hp, ⟨tx, hf, hc, rfl⟩ | ⟨-, -, rfl⟩ | ⟨-, rfl⟩ | ⟨-, -, rfl⟩ | ⟨-, -, rfl⟩ | ⟨-, -, rfl⟩ |
    ⟨-, -, rfl⟩⟩ := exec_next_cases h
  · exact (hs.accept ⟨hh, hp, hc⟩ hf).settle
  · exact hs.driveCs_done hh hp .low
  · exact hs.driveCs_done hh hp .high
  · exact hs.driveEn_done hh hp Config.enAssertLevel
  · exact hs.driveEn_done hh hp Config.enAssertLevel.other
  · exact hs.sampleDiag hh hp .diag0
  · exact hs.sampleDiag hh hp .diag1

/-- The outside moving on touches nothing the invariant speaks of. -/
theorem State.Inv.advance {s : State} (hs : s.Inv) : (advance s).Inv := by
  obtain ⟨p, ps, n, h⟩ := advance_frame s
  rw [h]
  exact ⟨hs.low_in_transaction, hs.high_when_released, hs.halted_idle, hs.frame_latched,
    hs.answer_latched, hs.cs_replayed, hs.en_replayed, hs.obs_read⟩

/-- Settles O47: the reset state is idle with nothing observed, and its latches are those an empty trace
leaves. -/
theorem resetMeetsTheInvariant : Obligations.ResetMeetsTheInvariant where
  low_in_transaction := nofun
  high_when_released := nofun
  halted_idle := nofun
  frame_latched := nofun
  answer_latched := nofun
  cs_replayed := rfl
  en_replayed := rfl
  obs_read := rfl

/-- R260: what the reset event leaves is what the invariant asks of an empty observation. -/
theorem inv_applyReset (s : State) : (applyReset s).Inv :=
  State.Inv.of_idle resetMeetsTheInvariant (new := []) ⟨rfl, rfl, rfl, rfl⟩ rfl

/-- Settles O49: the accept step, and each step of the phase machine by the phase it starts from. -/
theorem phaseStepKeepsTheInvariant : Obligations.PhaseStepKeepsTheInvariant :=
  ⟨fun _ _ _ hs hr hf => hs.accept hr hf, fun _ hs _ => hs.phaseStep⟩

/-- Settles O48: by what a step can do: a reset, no command, one operation, or the phase machine; the
outside moves on after each. -/
theorem stepKeepsTheInvariant : Obligations.StepKeepsTheInvariant := by
  intro s t hs h
  obtain ⟨-, rfl⟩ | ⟨-, -, ⟨-, -, rfl⟩ | ⟨i, t, -, -, hexec, rfl⟩ | ⟨-, rfl⟩⟩ := step_next_cases h
  · exact (inv_applyReset s).advance
  · exact hs.advance
  · exact (hs.exec hexec).advance
  · exact hs.settle.advance

end Sys2Proof.Machine
end

-- ==== Proofs: the operation map both ways (spec/30_encoding.md R91, R92) ====
section
/-! PROOFS. The numbers of the registers and the word layout read back, the decoder by the selector it
reads, and from these that an operation survives its command tuple and that the rest is refused
(spec/30_encoding.md R91, R92, spec/10_state.md R21). -/

namespace Sys2Proof

/-- Register numbers fit in seven bits, since the table has at most 128 entries. -/
theorem regCode_other_toNat (k : Fin Config.furtherRegs.length) :
    (regCode (.other k)).toNat = k.val + 2 := by
  have hlen := furtherRegs_length_le
  rw [regCode, BitVec.toNat_ofNat]
  omega

theorem decodeReg_regCode (r : Reg) : decodeReg (regCode r) = .ok r := by
  cases r with
  | xactual => rfl
  | vmax => rfl
  | other k => simp [decodeReg, regCode_other_toNat]

theorem regCode_of_decodeReg {code : BitVec 7} {r : Reg} (h : decodeReg code = .ok r) :
    regCode r = code := by
  apply BitVec.eq_of_toNat_eq
  revert h
  fun_cases decodeReg code with
  | case1 h0 => rintro ⟨⟩; exact h0.symm
  | case2 h0 h1 => rintro ⟨⟩; exact h1.symm
  | case3 h0 h1 h =>
    rintro ⟨⟩
    rw [regCode_other_toNat]
    dsimp only
    omega
  | case4 => nofun

theorem decodeReg_ok_iff (code : BitVec 7) :
    (∃ r, decodeReg code = .ok r) ↔ ∃ r, regCode r = code :=
  ⟨fun ⟨r, h⟩ => ⟨r, regCode_of_decodeReg h⟩, fun ⟨r, h⟩ => ⟨r, h ▸ decodeReg_regCode r⟩⟩

theorem eq_noSuchRegister_of_decodeReg {code : BitVec 7} {e : Reject}
    (h : decodeReg code = .error e) : e = .noSuchRegister code := by
  revert h
  fun_cases decodeReg code with
  | case4 => rintro ⟨⟩; rfl
  | _ => nofun

theorem Command.eq_of_toNat_eq {c d : Command} (hop : c.op.toNat = d.op.toNat)
    (hreg : c.reg.toNat = d.reg.toNat) (hcmd : c.cmd.toNat = d.cmd.toNat)
    (hwdata : c.wdata = d.wdata) : c = d := by
  obtain ⟨op, reg, cmd, wdata⟩ := c
  obtain ⟨op', reg', cmd', wdata'⟩ := d
  exact (Command.mk.injEq ..).mpr ⟨BitVec.eq_of_toNat_eq hop, BitVec.eq_of_toNat_eq hreg,
    BitVec.eq_of_toNat_eq hcmd, hwdata⟩

/-- The fields of a command tuple do not overlap in its word. -/
theorem Command.ofNat_toNat (c : Command) : Command.ofNat c.toNat = c := by
  have hop := c.op.isLt
  have hcmd := c.cmd.isLt
  have hp0 := c.wdata.p0.isLt
  have hp1 := c.wdata.p1.isLt
  have hp2 := c.wdata.p2.isLt
  have hp3 := c.wdata.p3.isLt
  have hreg := c.reg.isLt
  refine Command.eq_of_toNat_eq ?op ?reg ?cmd (Payload.eq_of_toNat_eq ?p0 ?p1 ?p2 ?p3)
  all_goals
    simp only [Command.ofNat, Command.toNat, BitVec.toNat_ofNat]
    omega

theorem decodeWord_encodeWord (i : Instr) : decodeWord (encodeWord i) = decode (encode i) := by
  rw [decodeWord, encodeWord, Command.ofNat_toNat]

/-- R185: a signed integer in the range of 32 bits is read back from its payload. -/
theorem signedReading_signedPayload {v : Int} (hlo : -2147483648 ≤ v) (hhi : v ≤ 2147483647) :
    signedReading (signedPayload v) = v := by
  rw [signedReading, signedPayload, de32_ser32, BitVec.toInt_ofInt, Int.bmod_eq_of_le] <;> omega

/-- R185: an unsigned integer in the range of 32 bits is read back from its payload. -/
theorem unsignedReading_unsignedPayload {u : Nat} (hu : u ≤ 4294967295) :
    unsignedReading (unsignedPayload u) = u := by
  rw [unsignedReading, unsignedPayload, de32_ser32, BitVec.toNat_ofNat]
  omega

theorem signedInRange_iff (v : Int) :
    signedInRange v = true ↔ -2147483648 ≤ v ∧ v ≤ 2147483647 := by
  simp [signedInRange]

theorem unsignedInRange_iff (u : Nat) : unsignedInRange u = true ↔ u ≤ 4294967295 := by
  simp [unsignedInRange]

/-- An operation survives its command tuple: its register by its number, and the integer of a typed write
by the range that well-formedness gives it. -/
theorem decode_encode {i : Instr} (h : WellFormed i) : decode (encode i) = .ok i := by
  have hreg (r : Reg) (f : Reg → Instr) : (decodeReg (regCode r)).map f = .ok (f r) := by
    rw [decodeReg_regCode]
    rfl
  cases i with
  | rdraw r => exact hreg r .rdraw
  | rds32 r => exact hreg r .rds32
  | rdu32 r => exact hreg r .rdu32
  | wrraw r p => exact hreg r (.wrraw · p)
  | wrs32 r v =>
    obtain ⟨hlo, hhi⟩ := (signedInRange_iff v).1 h
    refine (hreg r (.wrs32 · (signedReading (signedPayload v)))).trans ?_
    rw [signedReading_signedPayload hlo hhi]
  | wru32 r u =>
    refine (hreg r (.wru32 · (unsignedReading (unsignedPayload u)))).trans ?_
    rw [unsignedReading_unsignedPayload ((unsignedInRange_iff u).1 h)]
  | _ => rfl

theorem encode_op (i : Instr) : (encode i).op = selector i := by
  cases i <;> rfl

theorem selector_toNat_le (i : Instr) : (selector i).toNat ≤ 12 := by
  cases i <;> simp [selector]

/-- Settles O11: the tuple by the operation it carries, the word by the tuple it is the layout of. -/
theorem decodeOfEncodeIsTheOperation : Obligations.DecodeOfEncodeIsTheOperation := fun i h =>
  ⟨decode_encode h, (decodeWord_encodeWord i).trans (decode_encode h), encode_op i,
    selector_toNat_le i⟩

/-- R91 (a): selectors 13, 14 and 15 are reserved. -/
theorem decode_reserved {c : Command} (h : 13 ≤ c.op.toNat) :
    decode c = .error (.reservedSelector c.op) := by
  fun_cases decode c with
  | case14 => rfl
  | _ => omega

/-- Selectors 0 and 7 to 12 name an operation without a register, whatever stands on `reg`. -/
theorem decode_without_register {c : Command}
    (h : c.op.toNat = 0 ∨ (7 ≤ c.op.toNat ∧ c.op.toNat ≤ 12)) :
    ∃ i, selector i = c.op ∧ ∀ code : BitVec 7, decode { c with reg := code } = .ok i := by
  obtain ⟨op, reg, cmd, wdata⟩ := c
  have hop : op = 0#4 ∨ op = 7#4 ∨ op = 8#4 ∨ op = 9#4 ∨ op = 10#4 ∨ op = 11#4 ∨ op = 12#4 := by
    dsimp only at h
    bv_omega
  obtain rfl | rfl | rfl | rfl | rfl | rfl | rfl := hop
  · exact ⟨.xfer cmd wdata, rfl, fun _ => rfl⟩
  · exact ⟨.csassert, rfl, fun _ => rfl⟩
  · exact ⟨.csrelease, rfl, fun _ => rfl⟩
  · exact ⟨.enassert, rfl, fun _ => rfl⟩
  · exact ⟨.enrelease, rfl, fun _ => rfl⟩
  · exact ⟨.rddiag0, rfl, fun _ => rfl⟩
  · exact ⟨.rddiag1, rfl, fun _ => rfl⟩

/-- Selectors 1 to 6 name an operation of the register that `reg` numbers. -/
theorem decode_with_register {c : Command} (hlo : 1 ≤ c.op.toNat) (hhi : c.op.toNat ≤ 6) :
    ∃ f : Reg → Instr, (∀ r, selector (f r) = c.op) ∧ decode c = (decodeReg c.reg).map f := by
  obtain ⟨op, reg, cmd, wdata⟩ := c
  have hop : op = 1#4 ∨ op = 2#4 ∨ op = 3#4 ∨ op = 4#4 ∨ op = 5#4 ∨ op = 6#4 := by
    dsimp only at hlo hhi
    bv_omega
  obtain rfl | rfl | rfl | rfl | rfl | rfl := hop
  · exact ⟨.rdraw, fun _ => rfl, rfl⟩
  · exact ⟨.rds32, fun _ => rfl, rfl⟩
  · exact ⟨.rdu32, fun _ => rfl, rfl⟩
  · exact ⟨(.wrraw · wdata), fun _ => rfl, rfl⟩
  · exact ⟨(.wrs32 · (signedReading wdata)), fun _ => rfl, rfl⟩
  · exact ⟨(.wru32 · (unsignedReading wdata)), fun _ => rfl, rfl⟩

end Sys2Proof

namespace Sys2Proof.Machine

theorem fetch_of_command {s : State} {c : Command} (hc : s.pins.command = some c) :
    fetch s = some (decode c) := by
  rw [fetch, hc, Option.map_some]

section
variable {s : State} (hr : s.pins.reset = false) (hh : s.halted = false) (hp : s.phase = .idle)
include hr hh hp

/-- R91: the step of an idle block refuses what the decoder rejects. -/
theorem step_of_reject {e : Reject} (hf : fetch s = some (.error e)) :
    step s = .refused (refusalOf e) := by
  simp [step, hr, hh, hp, hf]

/-- R21: the step of an idle block runs the operation on the command port. -/
theorem step_of_fetch {i : Instr} (hf : fetch s = some (.ok i)) :
    step s = mapNext advance (exec i s) := by
  simp [step, hr, hh, hp, hf]

end

/-- Settles O12: the selectors by the three kinds of them, the registers by their numbers, and the step by
what the decoder answers. -/
theorem onlyReservedSelectorsNameNoOperation : Obligations.OnlyReservedSelectorsNameNoOperation := by
  refine ⟨fun c => decode_reserved, fun c => decode_without_register, fun c hlo hhi => ?_,
    fun s c e hr hh hp hc he => step_of_reject hr hh hp (he ▸ fetch_of_command hc)⟩
  obtain ⟨f, hsel, hdec⟩ := decode_with_register hlo hhi
  rw [hdec]
  cases hreg : decodeReg c.reg with
  | ok r =>
    refine ⟨⟨fun _ => ⟨r, rfl⟩, fun _ => ⟨f r, rfl⟩⟩, ?_, nofun, ?_⟩
    · rintro i ⟨⟩
      exact hsel r
    · exact ⟨fun _ => ⟨r, regCode_of_decodeReg hreg⟩, fun _ => ⟨r, rfl⟩⟩
  | error e =>
    refine ⟨⟨nofun, nofun⟩, nofun, ?_, ?_⟩
    · rintro _ ⟨⟩
      exact eq_noSuchRegister_of_decodeReg hreg
    · rw [← hreg]
      exact decodeReg_ok_iff c.reg

/-- Settles O10: each word by evaluation. -/
theorem tableWordsDecodeToTheirOperations : Obligations.TableWordsDecodeToTheirOperations :=
  ⟨rfl, rfl, rfl, rfl, rfl, rfl, rfl, rfl, rfl⟩

end Sys2Proof.Machine
end

-- ==== Proofs: what no step of a transaction touches (spec/10_state.md R26, R31, R38) ====
section
/-! PROOFS. The enable latch, the halt flag and the turns of the outside through the phase machine and
through every operation, and the operations that do change one of them (spec/10_state.md R21, R26, R31,
spec/44_line_control.md R210). -/

namespace Sys2Proof.Machine

/-- No step of the phase machine touches the enable latch, the halt flag or what the outside will do. -/
theorem phaseStep_keeps (s : State) :
    (phaseStep s).en = s.en ∧ (phaseStep s).halted = s.halted ∧ (phaseStep s).future = s.future := by
  cases hp : s.phase with
  | idle => rw [phaseStep_idle hp]; exact ⟨rfl, rfl, rfl⟩
  | selected => rw [phaseStep_selected hp]; exact ⟨rfl, rfl, rfl⟩
  | transferring =>
    rw [phaseStep_transferring hp]
    cases hb : s.pins.bus with
    | silent => rw [pollBus_silent hb]; exact ⟨rfl, rfl, rfl⟩
    | ok rx => rw [pollBus_ok hb]; exact ⟨rfl, rfl, rfl⟩
    | err e => rw [pollBus_err hb]; exact ⟨rfl, rfl, rfl⟩
    | cancel => rw [pollBus_cancel hb]; exact ⟨rfl, rfl, rfl⟩
  | released =>
    rw [phaseStep_released hp]
    match ha : s.cur.answer with
    | some .ok => rw [resultStep_ok ha]; exact ⟨rfl, rfl, rfl⟩
    | some (.err e) => rw [resultStep_err ha]; exact ⟨rfl, rfl, rfl⟩
    | none => rw [resultStep, ha]; exact ⟨rfl, rfl, rfl⟩

@[simp] theorem phaseStep_en (s : State) : (phaseStep s).en = s.en :=
  have ⟨hen, _, _⟩ := phaseStep_keeps s
  hen

@[simp] theorem phaseStep_halted (s : State) : (phaseStep s).halted = s.halted :=
  have ⟨_, hhalted, _⟩ := phaseStep_keeps s
  hhalted

@[simp] theorem phaseStep_future (s : State) : (phaseStep s).future = s.future :=
  have ⟨_, _, hfuture⟩ := phaseStep_keeps s
  hfuture

@[simp] theorem settle_en (s : State) : (settle s).en = s.en := by
  rw [settle, phaseStep_en, phaseStep_en, phaseStep_en]

@[simp] theorem settle_halted (s : State) : (settle s).halted = s.halted := by
  rw [settle, phaseStep_halted, phaseStep_halted, phaseStep_halted]

@[simp] theorem settle_future (s : State) : (settle s).future = s.future := by
  rw [settle, phaseStep_future, phaseStep_future, phaseStep_future]

@[simp] theorem sampleDiag_en (line : DiagLine) (s : State) : (sampleDiag line s).en = s.en := by
  cases h : s.pins.diag line with
  | ok b => rw [sampleDiag_ok h]; rfl
  | ioFail => rw [sampleDiag_ioFail h]; rfl

@[simp] theorem sampleDiag_future (line : DiagLine) (s : State) :
    (sampleDiag line s).future = s.future := by
  cases h : s.pins.diag line with
  | ok b => rw [sampleDiag_ok h]; rfl
  | ioFail => rw [sampleDiag_ioFail h]; rfl

/-- R229: a sample leaves a block halted that was not only when it fails. -/
theorem sampleDiag_halted_iff {line : DiagLine} {s : State} (hh : s.halted = false) :
    (sampleDiag line s).halted = true ↔ s.pins.diag line = .ioFail := by
  cases h : s.pins.diag line with
  | ok b => simp [sampleDiag_ok h, hh]
  | ioFail => simp [sampleDiag_ioFail h]

section
variable {i : Instr} {s t : State} (h : exec i s = .next t)
include h

/-- An operation takes no turn of the outside; the step around it does. -/
theorem exec_next_future : t.future = s.future := by
  obtain ⟨-, -, ⟨tx, -, -, rfl⟩ | ⟨-, -, rfl⟩ | ⟨-, rfl⟩ | ⟨-, -, rfl⟩ | ⟨-, -, rfl⟩ | ⟨-, -, rfl⟩ |
    ⟨-, -, rfl⟩⟩ := exec_next_cases h
  all_goals simp

/-- R31: no operation but ENASSERT and ENRELEASE writes the enable latch. -/
theorem exec_next_en (ha : i ≠ .enassert) (hr : i ≠ .enrelease) : t.en = s.en := by
  obtain ⟨-, -, ⟨tx, -, -, rfl⟩ | ⟨-, -, rfl⟩ | ⟨-, rfl⟩ | ⟨hi, -, -⟩ | ⟨hi, -, -⟩ | ⟨-, -, rfl⟩ |
    ⟨-, -, rfl⟩⟩ := exec_next_cases h
  · exact settle_en (accept i tx s)
  · rfl
  · rfl
  · exact absurd hi ha
  · exact absurd hi hr
  · exact sampleDiag_en .diag0 s
  · exact sampleDiag_en .diag1 s

/-- R26, R229: an operation halts the block only by a failed sample of its line. -/
theorem exec_next_halted (ht : t.halted = true) :
    (i = .rddiag0 ∧ s.pins.diag0 = .ioFail) ∨ (i = .rddiag1 ∧ s.pins.diag1 = .ioFail) := by
  obtain ⟨hh, -, ⟨tx, -, -, rfl⟩ | ⟨-, -, rfl⟩ | ⟨-, rfl⟩ | ⟨-, -, rfl⟩ | ⟨-, -, rfl⟩ | ⟨hi, -, rfl⟩ |
    ⟨hi, -, rfl⟩⟩ := exec_next_cases h
  · simp [hh] at ht
  · simp [hh] at ht
  · simp [hh] at ht
  · simp [hh] at ht
  · simp [hh] at ht
  · exact .inl ⟨hi, (sampleDiag_halted_iff hh).1 ht⟩
  · exact .inr ⟨hi, (sampleDiag_halted_iff hh).1 ht⟩

end

/-- Settles O41: the step of an idle block is `exec`, and the outside moving on takes its next turn and
touches nothing of the block. -/
theorem stepRunsTheDecodedOperation : Obligations.StepRunsTheDecodedOperation := by
  intro s c i hr hh hp hc hdec
  have hstep := step_of_fetch hr hh hp (hdec ▸ fetch_of_command hc)
  refine ⟨hstep, fun p ps hfut t ht => ⟨{ t with pins := p, future := ps }, ?_, ?_⟩⟩
  · rw [hstep, ht, mapNext_next, advance_cons ((exec_next_future ht).trans hfut)]
  · exact ⟨rfl, rfl, rfl, rfl, rfl, rfl, rfl, rfl, rfl, rfl⟩

/-- Settles O37: the operations one by one, and of the steps the reset is excluded, the phase machine keeps
the latch, and the outside moving on does. -/
theorem enableIsWrittenOnlyByItsOperations : Obligations.EnableIsWrittenOnlyByItsOperations := by
  refine ⟨fun i s t => exec_next_en, fun s t h hreset hfetch => ?_⟩
  obtain ⟨hr, -⟩ | ⟨-, -, ⟨-, -, rfl⟩ | ⟨i, t, -, hf, hexec, rfl⟩ | ⟨-, rfl⟩⟩ := step_next_cases h
  · rw [hreset] at hr
    cases hr
  · exact advance_en s
  · obtain ⟨ha, hrel⟩ := hfetch i hf
    exact (advance_en t).trans (exec_next_en hexec ha hrel)
  · exact (advance_en _).trans (settle_en s)

/-- Settles O38: a step that leaves the block halted can only have run an operation, and of the operations
only a failed sample halts; a halted block takes no step but a reset. -/
theorem onlyFatalIoHalts : Obligations.OnlyFatalIoHalts := by
  refine ⟨fun s t h ht => ?sets, fun s t h hh => ?clears⟩
  case sets =>
    obtain ⟨-, rfl⟩ | ⟨hr, hh, ⟨-, -, rfl⟩ | ⟨i, t, hp, hf, hexec, rfl⟩ | ⟨-, rfl⟩⟩ := step_next_cases h
    · simp at ht
    · simp [hh] at ht
    · rw [advance_halted] at ht
      obtain ⟨rfl, hd⟩ | ⟨rfl, hd⟩ := exec_next_halted hexec ht
      · exact ⟨hr, hp, .inl ⟨hf, hd⟩⟩
      · exact ⟨hr, hp, .inr ⟨hf, hd⟩⟩
    · simp [hh] at ht
  case clears =>
    obtain ⟨hr, -⟩ | ⟨-, hn, -⟩ := step_next_cases h
    · exact hr
    · rw [hh] at hn
      cases hn

/-- What the phase machine makes of an accepted frame does not depend on the enable latch. -/
theorem settle_accept_with_en (i : Instr) (tx : Frame) (s : State) (l : Latch) :
    settle (accept i tx { s with en := l }) = { settle (accept i tx s) with en := l } := by
  rw [settle_accept, settle_accept]
  dsimp only
  cases s.pins.bus with
  | silent => rfl
  | ok rx => rfl
  | err e => rfl
  | cancel => rfl

theorem sampleDiag_with_en (line : DiagLine) (s : State) (l : Latch) :
    sampleDiag line { s with en := l } = { sampleDiag line s with en := l } := by
  cases h : s.pins.diag line with
  | ok b => rw [sampleDiag_ok h, sampleDiag_ok (s := { s with en := l }) h]; rfl
  | ioFail => rw [sampleDiag_ioFail h, sampleDiag_ioFail (s := { s with en := l }) h]; rfl

/-- Admission does not look at the enable latch (R210). -/
theorem admitted_with_en (u : Bool) (s t : State) (l : Latch) :
    admitted u { s with en := l } { t with en := l } =
      mapNext (fun t => { t with en := l }) (admitted u s t) := by
  rw [mapNext_admitted]
  rfl

/-- Settles O39: each operation is an admission of its own effect, and neither looks at the latch. -/
theorem enableLineInterlocksNothing : Obligations.EnableLineInterlocksNothing := by
  intro i s l ha hr
  cases hf : frameOf i with
  | some tx =>
    rw [exec_of_frame hf, exec_of_frame hf, frameOp, frameOp, settle_accept_with_en]
    exact admitted_with_en false s _ l
  | none =>
    cases i with
    | csassert => exact admitted_with_en false s ((driveCs .low s).deliver .done) l
    | csrelease => exact admitted_with_en true s ((driveCs .high s).deliver .done) l
    | enassert => exact absurd rfl ha
    | enrelease => exact absurd rfl hr
    | rddiag0 =>
      have h := admitted_with_en false s (sampleDiag .diag0 s) l
      rwa [← sampleDiag_with_en] at h
    | rddiag1 =>
      have h := admitted_with_en false s (sampleDiag .diag1 s) l
      rwa [← sampleDiag_with_en] at h
    | _ => cases hf

end Sys2Proof.Machine
end

-- ==== Proofs: frame operations from the accept step to their end (spec/40_transaction_engine.md) ====
section
/-! PROOFS. The function form of a frame operation, where the phase machine stops, the wait for a silent bus
over any number of steps, and what a step adds to the observation (spec/40_transaction_engine.md R112, R113,
R121 to R123, spec/10_state.md R38, R40, R62). -/

namespace Sys2Proof.Machine

/-- Settles O14: the step of a selected transaction is the start step. -/
theorem startStepHandsTheFrameOver : Obligations.StartStepHandsTheFrameOver :=
  fun _ => phaseStep_selected

/-- Settles O13: a block with those three preconditions is ready, and the accept step is the update its
definition writes. -/
theorem acceptStepLatchesTheOperation : Obligations.AcceptStepLatchesTheOperation :=
  fun _ _ _ hf hp hh hc => ⟨exec_frame_of_ready hf ⟨hh, hp, hc⟩, rfl⟩

/-- Settles O26: the outcome of every frame operation at a silent turn of the bus. -/
theorem silentBusLeavesTheOperationWaiting : Obligations.SilentBusLeavesTheOperationWaiting :=
  fun _ _ _ => exec_frame_silent

theorem FrameOpCancelled.results {s t : State} {tx : Frame} (h : FrameOpCancelled s t tx) :
    t.results = s.results := by
  simp [h.observed]

/-- Settles O27: neither observation of a cancelled operation is a result. -/
theorem cancelledOperationDeliversNothing : Obligations.CancelledOperationDeliversNothing := by
  intro i tx s hf hs hb
  obtain ⟨t, hexec, hdone⟩ := exec_frame_cancel hf hs hb
  exact ⟨t, hexec, hdone, hdone.results⟩

section
variable {s t : State} {tx : Frame} {ans : ExchangeEnd} {r : OpResult}

theorem FrameOpDone.trace (h : FrameOpDone s t tx ans r) :
    t.trace = s.trace ++ [.csLow, .xchg tx ans, .csHigh] := by
  simp [h.observed]

theorem FrameOpDone.results (h : FrameOpDone s t tx ans r) : t.results = s.results ++ [r] := by
  simp [h.observed]

end

/-- The two answers of the bus, and the result each gives (R123). -/
def BusTurn.Answers (b : BusTurn) (ans : ExchangeEnd) (r : OpResult) : Prop :=
  (∃ rx, b = .ok rx ∧ ans = .ok rx ∧ r = .ok (statusDecode rx.b0) ⟨rx.b1, rx.b2, rx.b3, rx.b4⟩) ∨
    (∃ e, b = .err e ∧ ans = .err e ∧ r = .busErr e)

/-- R117, R123: a frame operation that the bus answers is done, whichever answer it is. -/
theorem exec_frame_answered {i : Instr} {tx : Frame} {s : State} {ans : ExchangeEnd} {r : OpResult}
    (hf : frameOf i = some tx) (hs : s.Ready) (hb : s.pins.bus.Answers ans r) :
    ∃ t, exec i s = .next t ∧ FrameOpDone s t tx ans r := by
  obtain ⟨rx, hb, rfl, rfl⟩ | ⟨e, hb, rfl, rfl⟩ := hb
  · exact exec_frame_ok hf hs hb
  · exact exec_frame_err hf hs hb

/-- Settles O25: the trace and the results are read off the observations of a finished operation. -/
theorem frameOperationsHaveTheirFunctionForm : Obligations.FrameOperationsHaveTheirFunctionForm := by
  intro i tx s ans res hf hh hp hc hb
  have hs : s.Ready := ⟨hh, hp, by rw [hc]; nofun⟩
  obtain ⟨t, hexec, hdone⟩ := exec_frame_answered hf hs hb
  exact ⟨t, hexec, hdone.trace, hdone.results, hdone.phase_idle, hdone.cs_high, hdone.en_kept,
    hdone.halted_kept⟩

/-! ### Where the phase machine stops -/

@[simp] theorem settle_pins (s : State) : (settle s).pins = s.pins := by
  simp [settle]

/-- From a transaction under way the phase machine comes to the end of it or waits for the bus. -/
theorem settle_phase_of_transferring {s : State} (hp : s.phase = .transferring) :
    (settle s).phase = .idle ∨ ((settle s).phase = .transferring ∧ s.pins.bus = .silent) := by
  cases hb : s.pins.bus with
  | silent => exact .inr ⟨by rw [settle_transferring_silent hp hb, hp], rfl⟩
  | ok rx => exact .inl (by rw [settle_transferring_ok hp hb]; rfl)
  | err e => exact .inl (by rw [settle_transferring_err hp hb]; rfl)
  | cancel => exact .inl (by rw [settle_transferring_cancel hp hb]; rfl)

/-- R121: the block waits in `Transferring` only. A released transaction has an answer to deliver, by the
invariant. -/
theorem State.Inv.settle_phase {s : State} (hs : s.Inv) :
    (Machine.settle s).phase = .idle ∨
      ((Machine.settle s).phase = .transferring ∧ s.pins.bus = .silent) := by
  cases hp : s.phase with
  | idle => exact .inl (by rw [settle_idle hp, hp])
  | selected =>
    rw [settle_selected hp]
    exact settle_phase_of_transferring rfl
  | transferring => exact settle_phase_of_transferring hp
  | released =>
    rw [settle_released hp]
    obtain h | ⟨ha, -⟩ := resultStep_phase s
    · exact .inl h
    · exact absurd ha (hs.answer_latched hp).1

/-- Settles O20: where the phase machine stops it has no step: an idle block has none of its own, and one
look at a silent bus changes nothing. -/
theorem blockStopsOnlyIdleOrWaiting : Obligations.BlockStopsOnlyIdleOrWaiting := by
  intro s hs
  refine ⟨?_, hs.settle_phase⟩
  obtain hp | ⟨hp, hb⟩ := hs.settle_phase
  · exact phaseStep_idle hp
  · rw [phaseStep_transferring hp, pollBus_silent ((settle_pins s).symm ▸ hb)]

/-! ### Waiting for the bus -/

/-- R121: a step of a block that waits for a silent bus is the next turn of the outside and nothing else. -/
theorem step_of_waiting {s : State} (hp : s.phase = .transferring) (hh : s.halted = false)
    (hw : s.pins.waits) : step s = .next (advance s) := by
  obtain ⟨hbus, hreset⟩ := hw
  rw [step_of_busy hreset hh (by rw [hp]; nofun), settle_transferring_silent hp hbus]

theorem waits_quiet (n : Nat) : (Pins.quiet n).waits := ⟨rfl, rfl⟩

/-- What the outside shows next, and shows after that, when the turns it has left are `ps`. -/
theorem advance_waits {s : State} (hf : ∀ p ∈ s.future, p.waits) :
    (advance s).pins.waits ∧ (advance s).future = s.future.drop 1 := by
  cases h : s.future with
  | nil => simp [advance, h, waits_quiet]
  | cons p ps =>
    rw [advance_cons h]
    exact ⟨hf p (by simp [h]), rfl⟩

/-- Settles O44: by induction on the steps; each is one silent turn of the outside, listed or not. -/
theorem silentBusHangsForEver : Obligations.SilentBusHangsForEver := by
  intro ps s hp hh hw hfut hps n
  induction n generalizing s ps with
  | zero => exact ⟨s, rfl, hp, rfl, rfl, rfl, rfl, rfl, hfut⟩
  | succ n ih =>
    subst hfut
    obtain ⟨hw', hfut'⟩ := advance_waits hps
    obtain ⟨t, hrun, hphase, hcs, hen, hobs, htxb, hcur, hfuture⟩ :=
      ih _ (advance s) (by simpa using hp) (by simpa using hh) hw' hfut'
        fun p hmem => hps p (List.mem_of_mem_drop hmem)
    simp only [advance_cs, advance_en, advance_obs, advance_txb, advance_cur] at hcs hen hobs htxb hcur
    refine ⟨t, (core_run_succ (step_of_waiting hp hh hw)).trans hrun, hphase, hcs, hen, hobs, htxb, hcur, ?_⟩
    rw [hfuture, List.drop_drop, Nat.add_comm]

/-- Over silent turns a block that waits comes to the first turn that is not, as it was. -/
theorem run_of_waiting {wait rest : List Pins} {last : Pins} {s : State} (hp : s.phase = .transferring)
    (hh : s.halted = false) (hw : s.pins.waits) (hfut : s.future = wait ++ last :: rest)
    (hwait : ∀ p ∈ wait, p.waits) (n : Nat) :
    core.run (wait.length + 1 + n) s = core.run n { s with pins := last, future := rest } := by
  induction wait generalizing s with
  | nil =>
    rw [List.length_nil, Nat.zero_add, Nat.add_comm, core_run_succ (step_of_waiting hp hh hw),
      advance_cons hfut]
  | cons p wait ih =>
    rw [List.length_cons, Nat.add_right_comm (wait.length + 1), core_run_succ (step_of_waiting hp hh hw),
      advance_cons hfut]
    exact ih hp hh (hwait p (by simp)) rfl fun q hq => hwait q (by simp [hq])

/-- A block that waits takes the answer of the bus in one step: it completes, delivers and is ready. -/
theorem step_of_answer {s : State} {ans : ExchangeEnd} {r : OpResult} (hp : s.phase = .transferring)
    (hh : s.halted = false) (hreset : s.pins.reset = false) (hb : s.pins.bus.Answers ans r) :
    ∃ t, step s = .next t ∧ t.Ready ∧ t.cs = .high ∧ t.en = s.en ∧
      t.obs = s.obs ++ [.event (.xchg s.txb ans), .event .csHigh, .result r] := by
  refine ⟨_, step_of_busy hreset hh (by rw [hp]; nofun), ?_⟩
  obtain ⟨rx, hb, rfl, rfl⟩ | ⟨e, hb, rfl, rfl⟩ := hb
  · rw [settle_transferring_ok hp hb]
    simp [State.Ready, finishOk, okResult, Frame.payload, hh]
  · rw [settle_transferring_err hp hb]
    simp [State.Ready, finishErr, hh]

/-- Settles O45: the operation is accepted and waits, waits on over the silent turns, and completes and
delivers at the turn that answers. -/
theorem frameOperationsEndAfterAnyDelay : Obligations.FrameOperationsEndAfterAnyDelay := by
  intro i tx ans res c s wait rest last hf hs hdec hc hw hfut hwait hreset hb
  have ⟨hh, hp, _⟩ := hs
  obtain ⟨t, hexec, ht⟩ := exec_frame_silent hf hs hw.1
  have hth : t.halted = false := ht.halted_kept.trans hh
  have htw : t.pins.waits := ht.pins_kept ▸ hw
  have hstep : step s = .next (advance t) := by
    rw [step_of_fetch hw.2 hh hp (hdec ▸ fetch_of_command hc), hexec, mapNext_next]
  -- the step that accepts the operation leaves what a step of the waiting state `t` would
  have hfirst : core.run (wait.length + 2) s = core.run (wait.length + 2) t := by
    rw [core_run_succ hstep, core_run_succ (step_of_waiting ht.phase_transferring hth htw)]
  obtain ⟨u, hlast, hready, hcs, hen, hobs⟩ :=
    step_of_answer (s := { t with pins := last, future := rest }) ht.phase_transferring hth hreset hb
  refine ⟨u, ?run, hready, hcs, hen.trans ht.en_kept, ?obs⟩
  case run =>
    rw [hfirst, run_of_waiting ht.phase_transferring hth htw (ht.future_kept.trans hfut) hwait 1]
    exact core_run_succ hlast
  case obs =>
    rw [hobs]
    simp [ht.observed, ht.txb_frame]

/-! ### What a step adds to the observation -/

/-- From `s` to `t` at most `n` observations were added, and none made before was changed. -/
def AddsAtMost (n : Nat) (s t : State) : Prop := ∃ new, t.obs = s.obs ++ new ∧ new.length ≤ n

theorem AddsAtMost.of_obs {n : Nat} {s t : State} {new : List Obs} (h : t.obs = s.obs ++ new)
    (hn : new.length ≤ n) : AddsAtMost n s t := ⟨new, h, hn⟩

theorem AddsAtMost.of_eq {n : Nat} {s t : State} (h : t.obs = s.obs) : AddsAtMost n s t :=
  ⟨[], by rw [h, List.append_nil], Nat.zero_le n⟩

theorem AddsAtMost.mono {m n : Nat} {s t : State} (h : AddsAtMost m s t) (hmn : m ≤ n) :
    AddsAtMost n s t := by
  obtain ⟨new, hobs, hm⟩ := h
  exact .of_obs hobs (hm.trans hmn)

theorem AddsAtMost.advance {n : Nat} {s t : State} (h : AddsAtMost n s t) :
    AddsAtMost n s (advance t) := by
  rwa [AddsAtMost, advance_obs]

theorem AddsAtMost.trans {m n : Nat} {s t u : State} (h : AddsAtMost m s t) (h' : AddsAtMost n t u) :
    AddsAtMost (m + n) s u := by
  obtain ⟨new, hobs, hm⟩ := h
  obtain ⟨new', hobs', hn⟩ := h'
  exact .of_obs (by rw [hobs', hobs, List.append_assoc])
    (List.length_append.trans_le (Nat.add_le_add hm hn))

/-- The end of an exchange adds at most the exchange, chip-select High and the result. -/
theorem addsAtMost_settle_transferring {s : State} (hp : s.phase = .transferring) :
    AddsAtMost 3 s (settle s) := by
  cases hb : s.pins.bus with
  | silent => exact .of_eq (by rw [settle_transferring_silent hp hb])
  | ok rx =>
    rw [settle_transferring_ok hp hb]
    exact .of_obs (new := [.event (.xchg s.txb (.ok rx)), .event .csHigh, .result (okResult rx)])
      (by simp [finishOk]) (Nat.le_refl 3)
  | err e =>
    rw [settle_transferring_err hp hb]
    exact .of_obs (new := [.event (.xchg s.txb (.err e)), .event .csHigh, .result (.busErr e)])
      (by simp [finishErr]) (Nat.le_refl 3)
  | cancel =>
    rw [settle_transferring_cancel hp hb]
    exact .of_obs (cancelExchange_obs s) (by simp)

theorem addsAtMost_settle (s : State) : AddsAtMost 3 s (settle s) := by
  cases hp : s.phase with
  | idle => exact .of_eq (by rw [settle_idle hp])
  | selected =>
    rw [settle_selected hp]
    exact addsAtMost_settle_transferring (s := startExchange s) rfl
  | transferring => exact addsAtMost_settle_transferring hp
  | released =>
    rw [settle_released hp]
    match ha : s.cur.answer with
    | some .ok => exact .of_obs (new := [.result (okResult s.rxb)]) (by simp [resultStep_ok ha]) (by simp)
    | some (.err e) => exact .of_obs (new := [.result (.busErr e)]) (by simp [resultStep_err ha]) (by simp)
    | none => exact .of_eq (by rw [resultStep, ha])

theorem addsAtMost_sampleDiag (line : DiagLine) (s : State) : AddsAtMost 4 s (sampleDiag line s) := by
  cases h : s.pins.diag line with
  | ok b =>
    exact .of_obs (congrArg State.obs (sampleDiag_ok_eq_update h)) (by simp)
  | ioFail => exact .of_obs (congrArg State.obs (sampleDiag_ioFail_eq_update h)) (by simp)

theorem addsAtMost_driveCs_done (l : Level) (s : State) :
    AddsAtMost 4 s ((driveCs l s).deliver .done) :=
  .of_obs (congrArg State.obs (driveCs_deliver_done l s)) (by simp)

theorem addsAtMost_driveEn_done (l : Level) (s : State) :
    AddsAtMost 4 s ((driveEn l s).deliver .done) :=
  .of_obs (congrArg State.obs (driveEn_deliver_done l s)) (by simp)

/-- R62: one operation adds at most the four observations of a frame operation that is answered. -/
theorem addsAtMost_exec {i : Instr} {s t : State} (h : exec i s = .next t) : AddsAtMost 4 s t := by
  obtain ⟨-, -, ⟨tx, -, -, rfl⟩ | ⟨-, -, rfl⟩ | ⟨-, rfl⟩ | ⟨-, -, rfl⟩ | ⟨-, -, rfl⟩ | ⟨-, -, rfl⟩ |
    ⟨-, -, rfl⟩⟩ := exec_next_cases h
  · have haccept : AddsAtMost 1 s (accept i tx s) := .of_obs (accept_obs i tx s) (Nat.le_refl 1)
    exact haccept.trans (addsAtMost_settle (accept i tx s))
  · exact addsAtMost_driveCs_done .low s
  · exact addsAtMost_driveCs_done .high s
  · exact addsAtMost_driveEn_done _ s
  · exact addsAtMost_driveEn_done _ s
  · exact addsAtMost_sampleDiag .diag0 s
  · exact addsAtMost_sampleDiag .diag1 s

/-- Settles O46: by what a step that is no reset can do. -/
theorem stepsOnlyAppendObservations : Obligations.StepsOnlyAppendObservations := by
  intro s t h hreset
  obtain ⟨hr, -⟩ | ⟨-, -, ⟨-, -, rfl⟩ | ⟨i, t, -, -, hexec, rfl⟩ | ⟨-, rfl⟩⟩ := step_next_cases h
  · rw [hreset] at hr
    cases hr
  · exact AddsAtMost.of_eq (advance_obs s)
  · exact (addsAtMost_exec hexec).advance
  · exact ((addsAtMost_settle s).mono (by decide)).advance

/-! ### What an operation depends on -/

/-- Two states that agree on what survives an operation (R38) and on the ports. -/
structure SameBlock (s s' : State) : Prop where
  phase : s'.phase = s.phase
  halted : s'.halted = s.halted
  cs : s'.cs = s.cs
  en : s'.en = s.en
  pins : s'.pins = s.pins

/-- From `s` to `t` and from `s'` to `t'` the outside saw the same, and the block came to the same lines,
phase and halt flag; while the exchange waits, to the same frame and operation too. -/
def SameEffect (s t s' t' : State) : Prop :=
  ∃ new, t.obs = s.obs ++ new ∧ t'.obs = s'.obs ++ new ∧ t'.phase = t.phase ∧ t'.halted = t.halted ∧
    t'.cs = t.cs ∧ t'.en = t.en ∧ (t.phase = .transferring → t'.txb = t.txb ∧ t'.cur = t.cur)

section
variable {s s' : State} (h : SameBlock s s')
include h

theorem SameBlock.ready (hs : s.Ready) : s'.Ready := by
  obtain ⟨hh, hp, hc⟩ := hs
  exact ⟨h.halted.trans hh, h.phase.trans hp, h.cs ▸ hc⟩

/-- The effect of an operation that leaves an idle block idle: its observations, what it makes of the lines,
and whether it halts the block. -/
theorem SameBlock.sameEffect_idle {t t' : State} {new : List Obs} (hp : s.phase = .idle)
    (hobs : t.obs = s.obs ++ new) (hobs' : t'.obs = s'.obs ++ new) (hphase : t.phase = s.phase)
    (hphase' : t'.phase = s'.phase) (hh : t'.halted = t.halted) (hcs : t'.cs = t.cs)
    (hen : t'.en = t.en) : SameEffect s t s' t' :=
  ⟨new, hobs, hobs', by rw [hphase, hphase', h.phase], hh, hcs, hen,
    fun ht => absurd (hp.symm.trans (hphase.symm.trans ht)) nofun⟩

theorem SameBlock.done {t t' : State} {tx : Frame} {ans : ExchangeEnd} {r : OpResult}
    (ht : FrameOpDone s t tx ans r) (ht' : FrameOpDone s' t' tx ans r) : SameEffect s t s' t' :=
  ⟨_, ht.observed, ht'.observed, by rw [ht.phase_idle, ht'.phase_idle],
    by rw [ht.halted_kept, ht'.halted_kept, h.halted], by rw [ht.cs_high, ht'.cs_high],
    by rw [ht.en_kept, ht'.en_kept, h.en], by rw [ht.phase_idle]; nofun⟩

theorem SameBlock.waits {t t' : State} {i : Instr} {tx : Frame}
    (ht : FrameOpWaits s t i tx) (ht' : FrameOpWaits s' t' i tx) : SameEffect s t s' t' :=
  ⟨_, ht.observed, ht'.observed, by rw [ht.phase_transferring, ht'.phase_transferring],
    by rw [ht.halted_kept, ht'.halted_kept, h.halted], by rw [ht.cs_low, ht'.cs_low],
    by rw [ht.en_kept, ht'.en_kept, h.en],
    fun _ => ⟨by rw [ht.txb_frame, ht'.txb_frame], by rw [ht.cur_latched, ht'.cur_latched]⟩⟩

theorem SameBlock.cancelled {t t' : State} {tx : Frame}
    (ht : FrameOpCancelled s t tx) (ht' : FrameOpCancelled s' t' tx) : SameEffect s t s' t' :=
  ⟨_, ht.observed, ht'.observed, by rw [ht.phase_idle, ht'.phase_idle],
    by rw [ht.halted_kept, ht'.halted_kept, h.halted], by rw [ht.cs_undef, ht'.cs_undef],
    by rw [ht.en_kept, ht'.en_kept, h.en], by rw [ht.phase_idle]; nofun⟩

theorem SameBlock.driveCs_done (hp : s.phase = .idle) (l : Level) :
    SameEffect s ((driveCs l s).deliver .done) s' ((driveCs l s').deliver .done) := by
  rw [driveCs_deliver_done, driveCs_deliver_done]
  exact h.sameEffect_idle hp rfl rfl rfl rfl h.halted rfl h.en

theorem SameBlock.driveEn_done (hp : s.phase = .idle) (l : Level) :
    SameEffect s ((driveEn l s).deliver .done) s' ((driveEn l s').deliver .done) := by
  rw [driveEn_deliver_done, driveEn_deliver_done]
  exact h.sameEffect_idle hp rfl rfl rfl rfl h.halted h.cs rfl

theorem SameBlock.sampleDiag (hp : s.phase = .idle) (line : DiagLine) :
    SameEffect s (sampleDiag line s) s' (sampleDiag line s') := by
  cases hd : s.pins.diag line with
  | ok b =>
    rw [sampleDiag_ok_eq_update hd, sampleDiag_ok_eq_update (h.pins ▸ hd)]
    exact h.sameEffect_idle hp rfl rfl rfl rfl h.halted h.cs h.en
  | ioFail =>
    rw [sampleDiag_ioFail_eq_update hd, sampleDiag_ioFail_eq_update (h.pins ▸ hd)]
    exact h.sameEffect_idle hp rfl rfl rfl rfl rfl h.cs h.en

/-- A frame operation has one effect by the turn of the bus, which stands on the ports of both states. -/
theorem SameBlock.exec_frame {i : Instr} {tx : Frame} (hf : frameOf i = some tx) (hs : s.Ready) :
    ∃ t t', exec i s = .next t ∧ exec i s' = .next t' ∧ SameEffect s t s' t' := by
  have hs' := h.ready hs
  cases hb : s.pins.bus with
  | silent =>
    obtain ⟨t, hexec, ht⟩ := exec_frame_silent hf hs hb
    obtain ⟨t', hexec', ht'⟩ := exec_frame_silent hf hs' (h.pins ▸ hb)
    exact ⟨t, t', hexec, hexec', h.waits ht ht'⟩
  | ok rx =>
    obtain ⟨t, hexec, ht⟩ := exec_frame_ok hf hs hb
    obtain ⟨t', hexec', ht'⟩ := exec_frame_ok hf hs' (h.pins ▸ hb)
    exact ⟨t, t', hexec, hexec', h.done ht ht'⟩
  | err e =>
    obtain ⟨t, hexec, ht⟩ := exec_frame_err hf hs hb
    obtain ⟨t', hexec', ht'⟩ := exec_frame_err hf hs' (h.pins ▸ hb)
    exact ⟨t, t', hexec, hexec', h.done ht ht'⟩
  | cancel =>
    obtain ⟨t, hexec, ht⟩ := exec_frame_cancel hf hs hb
    obtain ⟨t', hexec', ht'⟩ := exec_frame_cancel hf hs' (h.pins ▸ hb)
    exact ⟨t, t', hexec, hexec', h.cancelled ht ht'⟩

end

/-- R38: every operation has one effect from two states that agree on what survives. -/
theorem SameBlock.exec {i : Instr} {s s' t : State} (h : SameBlock s s') (he : exec i s = .next t) :
    ∃ t', exec i s' = .next t' ∧ SameEffect s t s' t' := by
  obtain ⟨hh, hp, ⟨tx, hf, hc, -⟩ | ⟨rfl, hc, rfl⟩ | ⟨rfl, rfl⟩ | ⟨rfl, hc, rfl⟩ | ⟨rfl, hc, rfl⟩ |
    ⟨rfl, hc, rfl⟩ | ⟨rfl, hc, rfl⟩⟩ := exec_next_cases he
  · obtain ⟨u, t', hexec, hexec', hsame⟩ := h.exec_frame hf ⟨hh, hp, hc⟩
    obtain rfl : t = u := Host.Outcome.next.inj (he.symm.trans hexec)
    exact ⟨t', hexec', hsame⟩
  · exact ⟨_, exec_csassert (h.ready ⟨hh, hp, hc⟩), h.driveCs_done hp .low⟩
  · exact ⟨_, exec_csrelease (h.halted.trans hh) (h.phase.trans hp), h.driveCs_done hp .high⟩
  · exact ⟨_, exec_enassert (h.ready ⟨hh, hp, hc⟩), h.driveEn_done hp _⟩
  · exact ⟨_, exec_enrelease (h.ready ⟨hh, hp, hc⟩), h.driveEn_done hp _⟩
  · exact ⟨_, exec_rddiag0 (h.ready ⟨hh, hp, hc⟩), h.sampleDiag hp .diag0⟩
  · exact ⟨_, exec_rddiag1 (h.ready ⟨hh, hp, hc⟩), h.sampleDiag hp .diag1⟩

/-- Settles O40: the effect of the operation from the other state, with the observations both made. -/
theorem nothingButLinesSurvivesAnOperation : Obligations.NothingButLinesSurvivesAnOperation := by
  intro i s s' t hphase hhalted hcs hen hpins he
  obtain ⟨t', he', new, hsame⟩ := SameBlock.exec ⟨hphase, hhalted, hcs, hen, hpins⟩ he
  exact ⟨t', new, he', hsame⟩

end Sys2Proof.Machine
end

-- ==== Proofs: chip-select and the last observation that touches it (spec/10_state.md R39) ====
section
/-! PROOFS. The observation cut at the last drive of chip-select or exchange, what the latch is after it, and
what the reader can have met from there on (spec/10_state.md R39 (c), (d)). -/

namespace Sys2Proof.Machine

/-- An observation that touches neither chip-select nor the bus leaves the chip-select latch. -/
theorem csAfter_of_not_touchesBus {e : Event} (h : (Obs.event e).touchesBus = false) (l : Latch) :
    csAfter l e = l := by
  cases e with
  | csLow => cases h
  | csHigh => cases h
  | xchg tx ans => cases h
  | enLow => rfl
  | enHigh => rfl
  | diag line ans => rfl

theorem foldl_csAfter_of_not_touchesBus {os : List Obs} (h : ∀ o ∈ os, o.touchesBus = false) (l : Latch) :
    (os.filterMap Obs.event?).foldl csAfter l = l := by
  induction os with
  | nil => rfl
  | cons o os ih =>
    obtain ⟨ho, hos⟩ := List.forall_mem_cons.1 h
    cases o with
    | result r => exact ih hos
    | event e => rw [events_of_event, List.foldl_cons, csAfter_of_not_touchesBus ho, ih hos]

/-- The last observation that touches chip-select or the bus, if there is one. -/
theorem exists_last_touch (os : List Obs) :
    (∀ o ∈ os, o.touchesBus = false) ∨
      ∃ before o after, os = before ++ o :: after ∧ o.touchesBus = true ∧
        ∀ o' ∈ after, o'.touchesBus = false := by
  induction os with
  | nil => exact .inl nofun
  | cons o os ih =>
    obtain h | ⟨before, o', after, rfl, ho', hafter⟩ := ih
    · cases ho : o.touchesBus with
      | false => exact .inl (List.forall_mem_cons.2 ⟨ho, h⟩)
      | true => exact .inr ⟨[], o, os, rfl, ho, h⟩
    · exact .inr ⟨o :: before, o', after, rfl, ho', hafter⟩

section
variable {s : State} {before after : List Obs}

/-- The observation from the cut on, as the reader meets it. -/
theorem State.Inv.foldl_next_of_append (hs : s.Inv) {os : List Obs} (hobs : s.obs = before ++ os) :
    os.foldl Reading.next (readObs before) = s.expectedReading := by
  rw [← hs.obs_read, hobs, readObs, readObs, List.foldl_append]

/-- The chip-select latch is what the last observation that touches it made of it. -/
theorem State.Inv.cs_of_last_touch (hs : s.Inv) {e : Event} (hobs : s.obs = before ++ .event e :: after)
    (hafter : ∀ o ∈ after, o.touchesBus = false) :
    s.cs = csAfter (replayCs (before.filterMap Obs.event?)) e := by
  rw [hs.cs_replayed, replayCs, State.trace, hobs, List.filterMap_append, List.foldl_append,
    events_of_event, List.foldl_cons, foldl_csAfter_of_not_touchesBus hafter]
  rfl

/-- An answered exchange is not the last: chip-select High follows it. -/
theorem State.Inv.answered_not_last_touch (hs : s.Inv) {tx : Frame} {ans : ExchangeEnd} {r : OpResult}
    (ha : answeredResult ans = some r) (hobs : s.obs = before ++ .event (.xchg tx ans) :: after)
    (hafter : ∀ o ∈ after, o.touchesBus = false) : False := by
  obtain ⟨-, after', rfl, -⟩ :=
    everyExchangeIsInsideAChipSelectInterval s before after tx ans r hs hobs ha
  exact absurd (hafter (.event .csHigh) (by simp)) (by decide)

/-- When chip-select is not High, the last observation that touches it is a drive Low or a cancelled
exchange, and the latch says which. -/
theorem State.Inv.last_touch (hs : s.Inv) (hcs : s.cs ≠ .high) :
    ∃ before e after, s.obs = before ++ .event e :: after ∧ (∀ o ∈ after, o.touchesBus = false) ∧
      ((e = .csLow ∧ s.cs = .low) ∨ ∃ tx, e = .xchg tx .cancelled ∧ s.cs = .undef) := by
  obtain h | ⟨before, o, after, hobs, ho, hafter⟩ := exists_last_touch s.obs
  · refine absurd ?_ hcs
    rw [hs.cs_replayed, replayCs]
    exact foldl_csAfter_of_not_touchesBus h .high
  · match o with
    | .event .csLow =>
      exact ⟨before, _, after, hobs, hafter, .inl ⟨rfl, hs.cs_of_last_touch hobs hafter⟩⟩
    | .event .csHigh => exact absurd (hs.cs_of_last_touch hobs hafter) hcs
    | .event (.xchg tx .cancelled) =>
      exact ⟨before, _, after, hobs, hafter, .inr ⟨tx, rfl, hs.cs_of_last_touch hobs hafter⟩⟩
    | .event (.xchg tx (.ok rx)) => exact (hs.answered_not_last_touch rfl hobs hafter).elim
    | .event (.xchg tx (.err e)) => exact (hs.answered_not_last_touch rfl hobs hafter).elim

end

/-- After a chip-select Low that is read the reader stands inside an operation. -/
theorem Reading.next_csLow {q : Reading} (h : q.next (.event .csLow) ≠ .wrong) :
    q.next (.event .csLow) = .afterLow := by
  cases q with
  | between => rfl
  | _ => exact absurd rfl h

/-- A cancelled exchange is read after a chip-select Low. -/
theorem Reading.eq_afterLow_of_cancelled {q : Reading} {tx : Frame}
    (h : q.next (.event (.xchg tx .cancelled)) ≠ .wrong) : q = .afterLow := by
  cases q with
  | afterLow => rfl
  | _ => exact absurd rfl h

/-- After chip-select Low, what does not touch the bus can only be the result of a manual drive. -/
theorem Reading.eq_done_of_afterLow {o : Obs} (ho : o.touchesBus = false)
    (h : Reading.afterLow.next o ≠ .wrong) : o = .result .done := by
  match o with
  | .result r =>
    by_cases hr : r = .done
    · rw [hr]
    · exact absurd (if_neg hr) h
  | .event .csLow | .event .csHigh | .event (.xchg _ _) => cases ho
  | .event .enLow | .event .enHigh | .event (.diag _ _) => exact absurd rfl h

/-- Settles O50: the last observation that touches the line is a drive Low; an idle block has no exchange
under way, so its result follows. -/
theorem lowWhileIdleIsAManualAssert : Obligations.LowWhileIdleIsAManualAssert := by
  intro s hs hp hcs
  obtain ⟨before, e, after, hobs, hafter, ⟨rfl, -⟩ | ⟨tx, -, hu⟩⟩ :=
    hs.last_touch (by rw [hcs]; nofun)
  · have hread := hs.foldl_next_of_append hobs
    have hwrong := hs.expectedReading_ne_wrong
    rw [← hread] at hwrong
    have hlow := Reading.next_csLow (next_ne_wrong_of_foldl hwrong)
    rw [List.foldl_cons, hlow] at hread hwrong
    match after with
    | [] =>
      rw [List.foldl_nil, expectedReading_of_idle hp] at hread
      cases hh : s.halted <;> simp [hh] at hread
    | o :: os =>
      obtain ⟨ho, hos⟩ := List.forall_mem_cons.1 hafter
      obtain rfl := Reading.eq_done_of_afterLow ho (next_ne_wrong_of_foldl hwrong)
      exact ⟨before, os, by simp [hobs], hos⟩
  · rw [hcs] at hu
    cases hu

/-- Settles O51: the last observation that touches the line is a cancelled exchange, which is read after a
chip-select Low alone. -/
theorem undefinedChipSelectIsACancel : Obligations.UndefinedChipSelectIsACancel := by
  intro s hs hcs
  obtain ⟨before, e, after, hobs, hafter, ⟨-, hl⟩ | ⟨tx, rfl, -⟩⟩ :=
    hs.last_touch (by rw [hcs]; nofun)
  · rw [hcs] at hl
    cases hl
  · have hwrong := hs.expectedReading_ne_wrong
    rw [← hs.foldl_next_of_append hobs] at hwrong
    have hlow := Reading.eq_afterLow_of_cancelled (next_ne_wrong_of_foldl hwrong)
    obtain ⟨b, rfl⟩ := eq_append_csLow_of_readObs hlow
    exact ⟨b, after, tx, by simp [hobs], hafter⟩

end Sys2Proof.Machine
end

-- ==== Proofs: the command byte and the frames by their bits (spec/30_encoding.md R83, R85, R90) ====
section
/-! PROOFS. A command byte is one flag bit above a 7-bit address, a frame is its five bytes side by side, and
the integers of the typed writes are words (spec/30_encoding.md R83, R85, R90, R96, spec/00_scope.md R12,
spec/43_write_accessors.md R185). -/

namespace Sys2Proof

/-- Two bit vectors put side by side are known by their halves. -/
theorem append_eq_append_iff {m n : Nat} {x x' : BitVec m} {y y' : BitVec n} :
    x ++ y = x' ++ y' ↔ x = x' ∧ y = y' := by
  constructor
  · intro h
    have hx := congrArg (BitVec.extractLsb' n m) h
    have hy := congrArg (BitVec.extractLsb' 0 n) h
    rw [BitVec.extractLsb'_append_eq_left, BitVec.extractLsb'_append_eq_left] at hx
    rw [BitVec.extractLsb'_append_eq_right, BitVec.extractLsb'_append_eq_right] at hy
    exact ⟨hx, hy⟩
  · rintro ⟨rfl, rfl⟩
    rfl

/-! ### The command byte -/

theorem setWidth_addr_eq_append (a : Addr) : (a.setWidth 8 : Byte) = 0#1 ++ a :=
  BitVec.setWidth_eq_append (by decide)

/-- R85: the flag and the address do not overlap, so that ORing them puts them side by side. -/
theorem flag_or_setWidth (w : Bool) (a : Addr) :
    (if w then writeFlag else 0x00#8) ||| a.setWidth 8 = BitVec.ofBool w ++ a := by
  have hflag : (if w then writeFlag else 0x00#8) = BitVec.ofBool w ++ 0#7 := by
    cases w <;> rfl
  rw [hflag, setWidth_addr_eq_append]
  refine BitVec.or_append.trans ?_
  rw [BitVec.or_zero, BitVec.zero_or]

theorem cmdByte_eq_append (w : Bool) (r : Reg) : cmdByte w r = BitVec.ofBool w ++ addr r :=
  flag_or_setWidth w (addr r)

theorem cmdByte_address (w : Bool) (r : Reg) : (cmdByte w r).extractLsb' 0 7 = addr r := by
  rw [cmdByte_eq_append]
  exact BitVec.extractLsb'_append_eq_right

theorem cmdByte_flag (w : Bool) (r : Reg) : (cmdByte w r).getLsbD 7 = w := by
  rw [cmdByte_eq_append, BitVec.getLsbD_append]
  cases w <;> rfl

theorem cmdByte_toNat (w : Bool) (r : Reg) :
    (cmdByte w r).toNat = (if w then 0x80 else 0) + (addr r).toNat := by
  rw [cmdByte_eq_append]
  refine (BitVec.toNat_append ..).trans ?_
  rw [← Nat.shiftLeft_add_eq_or_of_lt (addr r).isLt]
  cases w <;> rfl

/-- R96: the address of a register leaves bit 7 of the byte clear. -/
theorem setWidth_addr_and_writeFlag (a : Addr) : (a.setWidth 8 : Byte) &&& 0x80#8 = 0#8 := by
  rw [setWidth_addr_eq_append]
  refine (BitVec.and_append (x₂ := 1#1) (y₂ := 0#7)).trans ?_
  rw [BitVec.and_zero, BitVec.zero_and]
  rfl

/-- R96: a read and a write command byte differ in the flag, whatever their registers. -/
theorem cmdByte_false_ne_true (r r' : Reg) : cmdByte false r ≠ cmdByte true r' := fun h => by
  have hflag := congrArg (BitVec.getLsbD · 7) h
  simp only [cmdByte_flag] at hflag
  cases hflag

/-- Settles O3: a command byte is the flag bit above the address, and so is its number. -/
theorem commandByteCarriesFlagAndAddress : Obligations.CommandByteCarriesFlagAndAddress := by
  refine ⟨fun w r => ⟨rfl, cmdByte_address w r, cmdByte_flag w r⟩,
    fun r => ⟨setWidth_addr_and_writeFlag (addr r), cmdByte_false_ne_true r, ?_⟩⟩
  have hfalse : (cmdByte false r).toNat = 0 + (addr r).toNat := cmdByte_toNat false r
  have htrue : (cmdByte true r).toNat = 0x80 + (addr r).toNat := cmdByte_toNat true r
  have ha := (addr r).isLt
  omega

/-! ### Reading a frame back -/

theorem readBack_readFrame (r : Reg) : readBack (readFrame r) = ⟨false, addr r, 0#32⟩ :=
  (FrameView.mk.injEq ..).mpr ⟨cmdByte_flag false r, cmdByte_address false r,
    (by decide : de32 Payload.zero = 0#32)⟩

theorem readBack_writeFrame (r : Reg) (p : Payload) :
    readBack (writeFrame r p) = ⟨true, addr r, de32 p⟩ :=
  (FrameView.mk.injEq ..).mpr ⟨cmdByte_flag true r, cmdByte_address true r, rfl⟩

theorem signedPayload_signedReading (p : Payload) : signedPayload (signedReading p) = p := by
  rw [signedReading, signedPayload_toInt, ser32_de32]

theorem unsignedPayload_unsignedReading (p : Payload) : unsignedPayload (unsignedReading p) = p := by
  rw [unsignedReading, unsignedPayload_toNat, ser32_de32]

/-- Settles O7: a frame by definition; the frames of the accessors by the bits of the command byte, and the
typed writes by the payload that a reading is read from. -/
theorem framesReadBack : Obligations.FramesReadBack :=
  ⟨fun _ => rfl, fun r => ⟨readBack_readFrame r, rfl, rfl, rfl⟩,
    fun r p => ⟨readBack_writeFrame r p, rfl,
      congrArg (some ∘ writeFrame r) (signedPayload_signedReading p),
      congrArg (some ∘ writeFrame r) (unsignedPayload_unsignedReading p)⟩⟩

/-! ### Match and mask over the five bytes -/

/-- A frame masked byte by byte. -/
def Frame.and (f m : Frame) : Frame :=
  ⟨f.b0 &&& m.b0, f.b1 &&& m.b1, f.b2 &&& m.b2, f.b3 &&& m.b3, f.b4 &&& m.b4⟩

theorem wireBits_and (f m : Frame) : wireBits f &&& wireBits m = wireBits (f.and m) := by
  show (f.b0 ++ f.b1 ++ f.b2 ++ f.b3 ++ f.b4 : BitVec (8 + 8 + 8 + 8 + 8)) &&&
    (m.b0 ++ m.b1 ++ m.b2 ++ m.b3 ++ m.b4 : BitVec (8 + 8 + 8 + 8 + 8)) = _
  rw [BitVec.and_append, BitVec.and_append, BitVec.and_append, BitVec.and_append]
  rfl

theorem wireBits_injective : Function.Injective wireBits := by
  rintro ⟨a0, a1, a2, a3, a4⟩ ⟨b0, b1, b2, b3, b4⟩ h
  obtain ⟨h, rfl⟩ := append_eq_append_iff.1 h
  obtain ⟨h, rfl⟩ := append_eq_append_iff.1 h
  obtain ⟨h, rfl⟩ := append_eq_append_iff.1 h
  obtain ⟨rfl, rfl⟩ := append_eq_append_iff.1 h
  rfl

/-- A format whose mask and match are written as frames admits the frames that match byte by byte. -/
theorem admits_iff {w : WireFormat} {m p : Frame} (hm : w.mask = wireBits m)
    (hp : w.pattern = wireBits p) (f : Frame) : w.admits f = true ↔ f.and m = p := by
  rw [WireFormat.admits, hm, hp, wireBits_and, beq_iff_eq, wireBits_injective.eq_iff]

/-- The mask of the write flag reads bit 7 (R7). -/
theorem and_writeFlag (b : Byte) : b &&& 0x80#8 = if b.getLsbD 7 then 0x80#8 else 0#8 :=
  BitVec.and_twoPow b 7

theorem admits_raw (f : Frame) : WireFormat.raw.admits f = true :=
  (admits_iff (m := ⟨0#8, 0#8, 0#8, 0#8, 0#8⟩) (p := ⟨0#8, 0#8, 0#8, 0#8, 0#8⟩) rfl rfl f).2 <| by
    simp [Frame.and]

/-- R83: a write command is a frame with the write flag set. -/
theorem admits_txw (f : Frame) : WireFormat.txw.admits f = f.b0.getLsbD 7 := by
  rw [Bool.eq_iff_iff,
    admits_iff (m := ⟨0x80#8, 0#8, 0#8, 0#8, 0#8⟩) (p := ⟨0x80#8, 0#8, 0#8, 0#8, 0#8⟩) rfl rfl]
  simp [Frame.and, and_writeFlag]

/-- R83: a read command is a frame with the write flag clear and nothing after it. -/
theorem admits_txr (f : Frame) :
    WireFormat.txr.admits f = true ↔ f.b0.getLsbD 7 = false ∧ f.payload = Payload.zero := by
  rw [admits_iff (m := ⟨0x80#8, 0xFF#8, 0xFF#8, 0xFF#8, 0xFF#8⟩) (p := ⟨0#8, 0#8, 0#8, 0#8, 0#8⟩)
    rfl rfl]
  have hall (b : Byte) : b &&& 0xFF#8 = b := BitVec.and_allOnes
  simp [Frame.and, and_writeFlag, hall, Frame.payload, Payload.zero]

theorem admits_readFrame (r : Reg) : WireFormat.txr.admits (readFrame r) = true :=
  (admits_txr (readFrame r)).2 ⟨cmdByte_flag false r, rfl⟩

theorem admits_writeFrame (r : Reg) (p : Payload) : WireFormat.txw.admits (writeFrame r p) = true :=
  (admits_txw (writeFrame r p)).trans (cmdByte_flag true r)

/-- R92: the frame of an operation has the format the operation map gives it. -/
theorem admits_of_frameOf {i : Instr} {f : Frame} {w : WireFormat} (hf : frameOf i = some f)
    (hw : formatOf i = some w) : w.admits f = true := by
  cases i with
  | xfer c p => cases hf; cases hw; exact admits_raw _
  | rdraw r => cases hf; cases hw; exact admits_readFrame r
  | rds32 r => cases hf; cases hw; exact admits_readFrame r
  | rdu32 r => cases hf; cases hw; exact admits_readFrame r
  | wrraw r p => cases hf; cases hw; exact admits_writeFrame r p
  | wrs32 r v => cases hf; cases hw; exact admits_writeFrame r (signedPayload v)
  | wru32 r u => cases hf; cases hw; exact admits_writeFrame r (unsignedPayload u)
  | _ => cases hf

/-- Settles O6: the table by definition, the frames format by format, and the operations by the frames they
send. -/
theorem wirePatternsClassifyFrames : Obligations.WirePatternsClassifyFrames :=
  ⟨⟨rfl, rfl, rfl, rfl, rfl⟩, fun f => ⟨admits_raw f, admits_txw f, admits_txr f⟩,
    fun _ _ _ => admits_of_frameOf⟩

/-! ### The integers of the typed writes -/

theorem ser32_injective : Function.Injective ser32 :=
  Function.LeftInverse.injective de32_ser32

theorem writeFrame_inj {r : Reg} {p q : Payload} : writeFrame r p = writeFrame r q ↔ p = q :=
  ⟨congrArg Frame.payload, congrArg (writeFrame r)⟩

/-- R185: two typed writes of one register send one frame when they write one word. -/
theorem frameOf_wrs32_eq_wru32_iff (r : Reg) (v : Int) (u : Nat) :
    frameOf (.wrs32 r v) = frameOf (.wru32 r u) ↔ BitVec.ofInt 32 v = BitVec.ofNat 32 u := by
  rw [frameOf, frameOf, Option.some_inj, writeFrame_inj, signedPayload, unsignedPayload,
    ser32_injective.eq_iff]

/-- Settles O2: the readings of what was written, and the words of the two writes as numbers modulo `2^32`. -/
theorem writtenIntegersSurviveSerialisation : Obligations.WrittenIntegersSurviveSerialisation := by
  refine ⟨fun _ => signedReading_signedPayload, fun _ => unsignedReading_unsignedPayload,
    fun r v u hlo hhi hu => ?_⟩
  rw [frameOf_wrs32_eq_wru32_iff, ← BitVec.toNat_inj, BitVec.toNat_ofInt, BitVec.toNat_ofNat]
  omega

/-- R164: the two readings of a payload differ by the weight of its sign bit. -/
theorem unsignedReading_sub_signedReading (p : Payload) :
    (unsignedReading p : Int) - signedReading p = if p.p3.getLsbD 7 then 4294967296 else 0 := by
  have hmsb : (de32 p).msb = p.p3.getLsbD 7 := by
    show (p.p3 ++ p.p2 ++ p.p1 ++ p.p0 : BitVec (8 + 8 + 8 + 8)).msb = _
    rw [BitVec.msb_append, BitVec.msb_append, BitVec.msb_append]
    exact BitVec.msb_eq_getLsbD_last p.p3
  rw [unsignedReading, signedReading, BitVec.toInt_eq_msb_cond, hmsb]
  cases p.p3.getLsbD 7 <;> simp

end Sys2Proof

namespace Sys2Proof.Machine

/-- Settles O28: the three reads have one transmit frame; the readings by the sign bit. -/
theorem readsDifferOnlyInTheReading : Obligations.ReadsDifferOnlyInTheReading :=
  ⟨fun r s x => ⟨exec_eq_of_frameOf_eq (tx := readFrame r) rfl rfl s x,
    exec_eq_of_frameOf_eq (tx := readFrame r) rfl rfl s x⟩, unsignedReading_sub_signedReading⟩

/-- R12: the frame of a memory shorthand, with the write flag `w`. -/
theorem frameOf_xfer_address (w : Bool) (a : Addr) (p : Payload) :
    frameOf (.xfer ((if w then writeFlag else 0x00#8) ||| a.setWidth 8) p) =
      some ⟨BitVec.ofBool w ++ a, p.p0, p.p1, p.p2, p.p3⟩ := by
  rw [frameOf_xfer, flag_or_setWidth]

/-- Settles O30: each shorthand is an XFER, so a frame operation with the frame of its address and flag. -/
theorem memoryShorthandsAreTransactions : Obligations.MemoryShorthandsAreTransactions :=
  fun a p _ _ hs hb => ⟨exec_frame_ok (frameOf_xfer_address false a Payload.zero) hs hb,
    exec_frame_ok (frameOf_xfer_address true a p) hs hb⟩

end Sys2Proof.Machine
end

-- ==== Proofs: the status byte both ways (spec/41_status_decode.md R150) ====
section
/-! PROOFS. The bits of an encoded status byte, and that the encoder and the decoder undo each other
(spec/41_status_decode.md R150). -/

namespace Sys2Proof.Machine

theorem flagBit_eq_ofBool (b : Bool) (n : Nat) :
    flagBit b n = (BitVec.ofBool b).setWidth 8 <<< n := by
  cases b <;> rfl

/-- A flag at bit `n` of a byte is that bit and no other. -/
theorem flagBit_getLsbD (b : Bool) {n i : Nat} (hi : i < 8) :
    (flagBit b n).getLsbD i = (decide (i = n) && b) := by
  cases b with
  | false => simp [flagBit]
  | true =>
    rw [flagBit, if_pos rfl, ← BitVec.twoPow_eq, BitVec.getLsbD_twoPow, Bool.and_true, Bool.eq_iff_iff]
    simp only [Bool.and_eq_true, decide_eq_true_eq]
    omega

/-- R150: bit `i` of the encoded byte is the flag that the layout puts there. -/
theorem statusEncode_getLsbD (st : Status) {i : Nat} (hi : i < 8) :
    (statusEncode st).getLsbD i =
      (decide (i = 7) && st.stopLeft || decide (i = 6) && st.stopRight ||
        decide (i = 5) && st.positionReached || decide (i = 4) && st.velocityReached ||
        decide (i = 3) && st.standstill || decide (i = 2) && st.stallFlag ||
        decide (i = 1) && st.driverError || decide (i = 0) && st.resetFlag) := by
  simp only [statusEncode, BitVec.getLsbD_or, flagBit_getLsbD _ hi, statusLayout]

theorem statusDecode_statusEncode (st : Status) : statusDecode (statusEncode st) = st := by
  obtain ⟨_, _, _, _, _, _, _, _⟩ := st
  simp only [statusDecode, statusLayout, statusEncode_getLsbD, Nat.reduceLT]
  simp

theorem statusEncode_statusDecode (b : Byte) : statusEncode (statusDecode b) = b := by
  apply BitVec.eq_of_getLsbD_eq
  intro i hi
  rw [statusEncode_getLsbD _ hi]
  interval_cases i <;> simp [statusDecode, statusLayout]

theorem statusEncode_eq_formula (st : Status) : statusEncode st =
    (BitVec.ofBool st.stopLeft).setWidth 8 <<< 7 ||| (BitVec.ofBool st.stopRight).setWidth 8 <<< 6
      ||| (BitVec.ofBool st.positionReached).setWidth 8 <<< 5
      ||| (BitVec.ofBool st.velocityReached).setWidth 8 <<< 4
      ||| (BitVec.ofBool st.standstill).setWidth 8 <<< 3
      ||| (BitVec.ofBool st.stallFlag).setWidth 8 <<< 2
      ||| (BitVec.ofBool st.driverError).setWidth 8 <<< 1
      ||| (BitVec.ofBool st.resetFlag).setWidth 8 := by
  simp only [statusEncode, statusLayout, flagBit_eq_ofBool, BitVec.shiftLeft_zero]

/-- Settles O9: the encoder undoes the decoder bit by bit, and the decoder the encoder flag by flag. -/
theorem statusDecodeIsABijection : Obligations.StatusDecodeIsABijection :=
  ⟨Function.bijective_iff_has_inverse.2
      ⟨statusEncode, statusEncode_statusDecode, statusDecode_statusEncode⟩,
    statusEncode_statusDecode, fun st => ⟨statusDecode_statusEncode st, statusEncode_eq_formula st⟩⟩

end Sys2Proof.Machine
end
